-- ==== Sys2Proof/Word.lean ====
section
/-!
DEFINITION. The bit-vector types of IBF-CORE: the byte (every counter and every buffer cell, 20_memory.md R32), the 2-bit
quadrature sample (30_encoding.md R48) and the 4-bit key of the delta table (R49).
-/

namespace Sys2Proof

/-- One byte: a buffer cell, a status code, or an encoder counter. -/
abbrev Byte := BitVec 8

/-- A quadrature sample, `A` in bit 1 and `B` in bit 0 (R48). -/
abbrev Sample := BitVec 2

/-- The delta-table key: previous sample in bits 3..2, current sample in bits 1..0 (R49). -/
abbrev Key := BitVec 4

end Sys2Proof
end

