-- ==== Sys2Proof/Config.lean ====
section
/-!
DEFINITION. The parameters of 00_scope.md R3 (constants that no operation writes, R18, R39) and the free values of the model.
-/

namespace Sys2Proof.Config

/-- `BROADCAST_ADDR` (R3). -/
abbrev broadcastAddr : Nat := 0

/-- `CAP_MAX`: the largest capacity and logical length (R3). UNVERIFIED: the spec's decision D3, log 8. -/
abbrev capMax : Nat := 255

/-- `CRC_POLY` (R3, R60). UNVERIFIED: the spec's decision D4, log 9. -/
abbrev crcPoly : Byte := 0x07#8

/-- `CRC_INIT` (R3, R60). -/
abbrev crcInit : Byte := 0x00#8

/-- `CRC_XOROUT` (R3, R61). -/
abbrev crcXorOut : Byte := 0x00#8

/-- `BTN_MAX` (R3, R15). -/
abbrev btnMax : Nat := 127

/-- `DETENT_STEP` (R3). -/
abbrev detentStep : Nat := 4

/-- The low end of `DIFF_WINDOW` (R3, R86). -/
abbrev windowLow : Int := -3

/-- The high end of `DIFF_WINDOW` (R3, R86). -/
abbrev windowHigh : Int := 3

/-- `PREV_INIT`: both lines high at rest (R3, R12). UNVERIFIED: the spec's decision D6, log 11. -/
abbrev prevInit : Sample := 0b11#2

/-- `DBL_03`: the delta of key 0b0011 (R3, R80). UNVERIFIED: the spec's decision D7, log 10. -/
abbrev dbl03 : Int := 2

/-- `DBL_06`: the delta of key 0b0110 (R3, R80). UNVERIFIED: the spec's decision D7, log 10. -/
abbrev dbl06 : Int := 2

/-- `BTN_ACTIVE_LEVEL`: the level that makes a button edge qualify, low (R3, R83). UNVERIFIED: D8, log 12. -/
abbrev btnActiveLevel : Bool := false

/-- FREE VALUE (log 3): which of the seven statuses of R44 the dispatcher answers, for the draw's number, the command byte, the
payload and the largest reply length. -/
opaque freeStatus : Nat → Byte → List Byte → Nat → Fin 7

/-- FREE VALUE (log 3): the reply length of a dispatcher's answer, before the contract's bound (R76). -/
opaque freeReplyLen : Nat → Byte → List Byte → Nat → Nat

/-- FREE VALUE (log 3): the bytes the dispatcher leaves in its region, by position (R76, 93_implementation_defined.md I6). -/
opaque freeRegionByte : Nat → Byte → List Byte → Nat → Nat → Byte

end Sys2Proof.Config
end

