-- ==== Sys2Proof/Syntax.lean ====
section
/-!
DEFINITION. The instructions: one constructor for each row of spec/opcode_table.json, and the operands they carry.
-/

namespace Sys2Proof

/-- One bus transaction as the bus driver passes it to XFER: the target address, the transfer buffer (its list of `cap` bytes) and
the logical length (R11, R51). The address is a natural: every `ADDR_W` at once (DEDUCED, log 7). -/
structure Transaction where
  addr : Nat
  buf : List Byte
  len : Nat
  deriving DecidableEq, Repr

/-- The dispatcher's answer `(status, r, region)` (R76). A `region` shorter than `max_reply_len` leaves the other bytes of
`buf[1..cap-2]` as they were (95_test_vectors.md section 3; log 18). -/
structure Answer where
  status : Byte
  replyLen : Nat
  region : List Byte
  deriving DecidableEq, Repr

/-- The two sources of a reset (R121). -/
inductive ResetSource where
  | powerOn
  | watchdog
  deriving DecidableEq, Repr

/-- The instructions: what spec/opcode_table.json lists, one constructor a row, in the table's order. -/
inductive Instr where
  /-- BCAST_RESET (R64): broadcast `RESET`. -/
  | bcastReset (t : Transaction)
  /-- BCAST_RESET_ADDRESS (R65): broadcast `RESET_ADDRESS`. -/
  | bcastResetAddress (t : Transaction)
  /-- BCAST_NOP (R66): any other broadcast. -/
  | bcastNop (t : Transaction)
  /-- U_NOCAP (R67): unicast below the capacity floor. -/
  | uNocap (t : Transaction)
  /-- U_SHORT (R68): unicast shorter than two bytes. -/
  | uShort (t : Transaction)
  /-- U_BADCRC (R69): unicast whose checksum does not verify. -/
  | uBadcrc (t : Transaction)
  /-- UNICAST_REQUEST (R70): a verified request, handed to a dispatcher whose answer is free. -/
  | unicastRequest (t : Transaction)
  /-- COMMAND_OK (R44): a transaction answered with status 0x00. -/
  | commandOk (t : Transaction) (replyLen : Nat) (region : List Byte)
  /-- COMMAND_FAILED (R44): a transaction answered with status 0x01. -/
  | commandFailed (t : Transaction) (replyLen : Nat) (region : List Byte)
  /-- COMMAND_NOT_SUPPORTED (R44): a transaction answered with status 0x02. -/
  | commandNotSupported (t : Transaction) (replyLen : Nat) (region : List Byte)
  /-- INVALID_TRANSFER (R44): a transaction answered with status 0x03, by TE or relayed (R68, R79). -/
  | invalidTransfer (t : Transaction) (replyLen : Nat) (region : List Byte)
  /-- INVALID_CRC (R44): a transaction answered with status 0x04, by TE or relayed (R69, R79). -/
  | invalidCrc (t : Transaction) (replyLen : Nat) (region : List Byte)
  /-- INVALID_ARGUMENTS (R44): a transaction answered with status 0x05. -/
  | invalidArguments (t : Transaction) (replyLen : Nat) (region : List Byte)
  /-- NO_REPLY (R44, R71): a transaction whose reply the dispatcher suppresses with 0xFF. -/
  | noReply (t : Transaction) (replyLen : Nat) (region : List Byte)
  /-- XFER (R62): a bus transaction, with the dispatcher's answer where the environment supplies it. -/
  | xfer (t : Transaction) (answer : Option Answer)
  /-- QUAD_SAMPLE (R81): the levels of lines A and B. -/
  | quadSample (a b : Bool)
  /-- BTN_EDGE (R83): the button line's level after the edge. -/
  | btnEdge (level : Bool)
  /-- DRAIN (R85). -/
  | drain
  /-- DRAIN_STEP (R86). -/
  | drainStep
  /-- DRAIN_CLEAR (R87). -/
  | drainClear
  /-- RESET (R120). -/
  | reset (src : ResetSource)
  /-- RESERVED_111 (R51): the selector that names no operation. -/
  | reserved111
  deriving DecidableEq, Repr

/-- A bus transaction on the port, with the dispatcher's answer to it where the environment fixes one (R76: the answer is a free
input of the XFER step). -/
structure BusInput where
  transaction : Transaction
  answer : Option Answer
  deriving DecidableEq, Repr

/-- One encoded input of the block: what an agent presents for one step (DESIGN CHOICE, log 22). -/
inductive PortWord where
  /-- A port operation (R51): selector and operand bits, high to low, and XFER's operands. -/
  | op (bits : List Bool) (bus : Option BusInput)
  /-- A bus frame, read by the frame rows of the table (R41), and by the status rows where it comes with an answer (R44). -/
  | frame (bus : BusInput)
  deriving DecidableEq, Repr

end Sys2Proof
end

