-- ==== Sys2Proof/Decode.lean ====
section
/-!
DEFINITION. Decoding and encoding: the checksum (40_transport.md R60), the path of a transaction (R62), the frame rows, the status
rows and the port-operation rows of the table (30_encoding.md R41, R44, R45, R51), and the encoder.
-/

namespace Sys2Proof

/-! ### The checksum -/

/-- One of the eight shifts of R60. -/
def crcShift (c : Byte) : Byte :=
  if c.getLsbD 7 then (c <<< 1) ^^^ Config.crcPoly else c <<< 1

/-- The register after one more byte (R60). -/
def crcByte (c b : Byte) : Byte :=
  crcShift (crcShift (crcShift (crcShift (crcShift (crcShift (crcShift (crcShift (c ^^^ b))))))))

/-- `crc8(d)` (R60). -/
def crc8 (d : List Byte) : Byte :=
  d.foldl crcByte Config.crcInit ^^^ Config.crcXorOut

/-! ### Transactions and their paths -/

/-- `cap`: how many bytes the transfer buffer holds (R11). -/
def Transaction.cap (t : Transaction) : Nat := t.buf.length

/-- The frame `buf[0..len-1]` (00_scope.md, glossary). -/
def Transaction.frame (t : Transaction) : List Byte := t.buf.take t.len

/-- The largest reply payload the dispatcher may return: `cap - 2` (R70). -/
def Transaction.maxReply (t : Transaction) : Nat := t.cap - 2

/-- The paths XFER chooses from (R62). -/
inductive Path where
  | bcastReset
  | bcastResetAddress
  | bcastNop
  | uNocap
  | uShort
  | uBadcrc
  | uDispatch
  deriving DecidableEq, Repr

/-- The broadcast path, decided by byte 0 alone (R45, R63). -/
def broadcastPath : List Byte → Path
  | [] => .bcastNop
  | b :: _ => if b = 0x06#8 then .bcastReset else if b = 0x04#8 then .bcastResetAddress else .bcastNop

/-- The path of a transaction: the first condition of R62 that holds. `none` is `len > cap`, which has no path (R77). -/
def pathOf (t : Transaction) : Option Path :=
  if t.cap < t.len then none
  else if t.addr = Config.broadcastAddr then some (broadcastPath t.frame)
  else if t.cap < 2 then some .uNocap
  else if t.len < 2 then some .uShort
  else if crc8 t.frame ≠ 0x00#8 then some .uBadcrc
  else some .uDispatch

/-- The seven status values of R44. -/
def statusDefined (c : Byte) : Bool :=
  c.toNat ≤ 0x05 || c == 0xFF#8

/-- Whether a transaction can end with status `c` (R44, column "produced by"): the dispatcher answers a verified request with it,
or TE itself answers a short frame with 0x03 and a bad checksum with 0x04. -/
def endsWithStatus (c : Byte) (t : Transaction) : Bool :=
  match pathOf t with
  | some .uDispatch => true
  | some .uShort => c == 0x03#8
  | some .uBadcrc => c == 0x04#8
  | _ => false

/-! ### The decoder -/

/-- Why a port word is no operation. -/
inductive DecodeError where
  /-- Selector 0b111 (R51, 93_implementation_defined.md I8). -/
  | reservedSelector
  /-- The selector's operand bits are too few or too many for its pattern (R51). -/
  | noSuchPattern
  /-- XFER without its operands (R51). -/
  | xferOperandsMissing
  /-- Bus operands with a selector that takes none (R51). -/
  | strayBusOperands
  /-- A capacity above `CAP_MAX` (R3, R11). -/
  | capAboveMax
  /-- A logical length above `CAP_MAX` (R51). -/
  | lenAboveMax
  /-- A dispatcher's region longer than `buf[1..cap-2]` (R76). -/
  | regionTooLong
  deriving DecidableEq, Repr

/-- What decoding answers: an instruction, or the reason there is none. -/
inductive Decoded where
  | ok (i : Instr)
  | error (e : DecodeError)
  deriving DecidableEq, Repr

/-- The instruction, if there is one. -/
def Decoded.instr? : Decoded → Option Instr
  | .ok i => some i
  | .error _ => none

/-- The bounds of XFER's operands (R3, R51, R76): what is wrong with them, if anything. -/
def busProblem (b : BusInput) : Option DecodeError :=
  if Config.capMax < b.transaction.cap then some .capAboveMax
  else if Config.capMax < b.transaction.len then some .lenAboveMax
  else match b.answer with
    | some a => if b.transaction.maxReply < a.region.length then some .regionTooLong else none
    | none => none

/-- The frame row of a path. -/
def pathInstr (p : Path) (t : Transaction) : Instr :=
  match p with
  | .bcastReset => .bcastReset t
  | .bcastResetAddress => .bcastResetAddress t
  | .bcastNop => .bcastNop t
  | .uNocap => .uNocap t
  | .uShort => .uShort t
  | .uBadcrc => .uBadcrc t
  | .uDispatch => .unicastRequest t

/-- The status row of a code (R44); none for 0x06..0xFE. -/
def statusInstr (a : Answer) (t : Transaction) : Option Instr :=
  if a.status = 0x00#8 then some (.commandOk t a.replyLen a.region)
  else if a.status = 0x01#8 then some (.commandFailed t a.replyLen a.region)
  else if a.status = 0x02#8 then some (.commandNotSupported t a.replyLen a.region)
  else if a.status = 0x03#8 then some (.invalidTransfer t a.replyLen a.region)
  else if a.status = 0x04#8 then some (.invalidCrc t a.replyLen a.region)
  else if a.status = 0x05#8 then some (.invalidArguments t a.replyLen a.region)
  else if a.status = 0xFF#8 then some (.noReply t a.replyLen a.region)
  else none

/-- The frame rows, tried in the order of R62; the status row where the frame comes with an answer it can end with. A transaction
that no row describes (`len > cap`, or an answer outside the enumeration) is the port operation XFER itself, which faults. -/
def frameInstr (b : BusInput) : Instr :=
  match b.answer with
  | none =>
    match pathOf b.transaction with
    | some p => pathInstr p b.transaction
    | none => .xfer b.transaction none
  | some a =>
    if endsWithStatus a.status b.transaction then
      (statusInstr a b.transaction).getD (.xfer b.transaction (some a))
    else match pathOf b.transaction with
      | some p => pathInstr p b.transaction
      | none => .xfer b.transaction (some a)

/-- Bus operands within their bounds, or the reason they are not. -/
def checkBus (b : BusInput) (i : Instr) : Decoded :=
  match busProblem b with
  | some e => .error e
  | none => .ok i

/-- The port operations without bus operands, bit for bit as the patterns of R51 (high to low). -/
def decodeBits : List Bool → Decoded
  | [false, false, false] => .error .xferOperandsMissing
  | [false, false, true, a, b] => .ok (.quadSample a b)
  | [false, true, false, l] => .ok (.btnEdge l)
  | [false, true, true] => .ok .drain
  | [true, false, false] => .ok .drainStep
  | [true, false, true] => .ok .drainClear
  | [true, true, false, false] => .ok (.reset .powerOn)
  | [true, true, false, true] => .ok (.reset .watchdog)
  | true :: true :: true :: _ => .error .reservedSelector
  | _ => .error .noSuchPattern

/-- A selector with bus operands: XFER, and nothing else (R51). -/
def decodeBusOp (b : BusInput) : List Bool → Decoded
  | [false, false, false] => checkBus b (.xfer b.transaction b.answer)
  | true :: true :: true :: _ => .error .reservedSelector
  | _ => .error .strayBusOperands

/-- The decoder: total on every port word, refusing by name. -/
def decode : PortWord → Decoded
  | .op bits none => decodeBits bits
  | .op bits (some b) => decodeBusOp b bits
  | .frame b => checkBus b (frameInstr b)

/-! ### The encoder -/

/-- A frame answered with status `c`. -/
def encodeStatus (c : Byte) (t : Transaction) (replyLen : Nat) (region : List Byte) : PortWord :=
  .frame ⟨t, some ⟨c, replyLen, region⟩⟩

/-- The encoding of an instruction, from the same tables (R41, R44, R51). -/
def encode : Instr → PortWord
  | .bcastReset t => .frame ⟨t, none⟩
  | .bcastResetAddress t => .frame ⟨t, none⟩
  | .bcastNop t => .frame ⟨t, none⟩
  | .uNocap t => .frame ⟨t, none⟩
  | .uShort t => .frame ⟨t, none⟩
  | .uBadcrc t => .frame ⟨t, none⟩
  | .unicastRequest t => .frame ⟨t, none⟩
  | .commandOk t r region => encodeStatus 0x00#8 t r region
  | .commandFailed t r region => encodeStatus 0x01#8 t r region
  | .commandNotSupported t r region => encodeStatus 0x02#8 t r region
  | .invalidTransfer t r region => encodeStatus 0x03#8 t r region
  | .invalidCrc t r region => encodeStatus 0x04#8 t r region
  | .invalidArguments t r region => encodeStatus 0x05#8 t r region
  | .noReply t r region => encodeStatus 0xFF#8 t r region
  | .xfer t answer => .op [false, false, false] (some ⟨t, answer⟩)
  | .quadSample a b => .op [false, false, true, a, b] none
  | .btnEdge l => .op [false, true, false, l] none
  | .drain => .op [false, true, true] none
  | .drainStep => .op [true, false, false] none
  | .drainClear => .op [true, false, true] none
  | .reset .powerOn => .op [true, true, false, false] none
  | .reset .watchdog => .op [true, true, false, true] none
  | .reserved111 => .op [true, true, true] none

/-! ### The words of the opcode table -/

/-- The low `n` bits of `w`, high to low. -/
def bitsOf : Nat → Nat → List Bool
  | 0, _ => []
  | n + 1, w => w.testBit n :: bitsOf n w

/-- The low `n` bytes of `w`, the least significant first: bytes in wire order (R31). -/
def bytesOf : Nat → Nat → List Byte
  | 0, _ => []
  | n + 1, w => BitVec.ofNat 8 w :: bytesOf n (w / 256)

/-- The all-zero unicast frame: `[0x00, 0x00]` verifies (R61), so it is handed to the dispatcher. -/
def zeroRequest : Transaction := ⟨1, [0x00#8, 0x00#8], 2⟩

/-- The port word of a table word (DESIGN CHOICE, log 20). The table numbers three code spaces alike (R45: they "do not interact"):
words shorter than a byte are port operations with zero operands; a first byte that is a broadcast command is a broadcast frame; a
first byte that is a status is a dispatcher's answer to the all-zero request; any other byte is a broadcast frame. -/
def tableWord (nbits w : Nat) : PortWord :=
  if nbits < 8 then
    .op (bitsOf nbits w) (if bitsOf nbits w = [false, false, false] then some ⟨⟨0, [], 0⟩, none⟩ else none)
  else
    let bytes := bytesOf (nbits / 8) w
    let first := BitVec.ofNat 8 w
    if first = 0x06#8 ∨ first = 0x04#8 then .frame ⟨⟨0, bytes, bytes.length⟩, none⟩
    else if statusDefined first then encodeStatus first zeroRequest 0 []
    else .frame ⟨⟨0, bytes, bytes.length⟩, none⟩

/-- The instruction the decoder reads from a word of spec/opcode_table.json. -/
def decodeTableWord (nbits w : Nat) : Option Instr :=
  (decode (tableWord nbits w)).instr?

end Sys2Proof
end

