-- ==== Sys2Proof/Machine/State.lean ====
section
/-!
DEFINITION. The state of IBF-CORE (10_state.md), the reasons a step can stop, and the state after reset (70_reset_and_hazards.md
R120, R121).
-/

namespace Sys2Proof.Machine

/-- `TE.MODE` (R10). -/
inductive Mode where
  | run
  | halted
  deriving DecidableEq, Repr

/-- `EE.DPH`, where the main context is in the drain (R16). -/
inductive DrainPhase where
  | idle
  | loop
  | clear
  deriving DecidableEq, Repr

/-- The events of the history `H` (R19). -/
inductive Event where
  | dispatchCall (cmd : Byte) (payloadLen maxReplyLen : Nat)
  | dispatchAnswer (status : Byte) (replyLen : Nat)
  | addressResetRequest
  | watchdogArm
  | xferDone (newLen : Nat)
  | drainRequest
  | drainResult (word : Byte) (detents : Int)
  | reset (src : ResetSource)
  deriving DecidableEq, Repr

/-- The transfer buffer as cells `(index, byte)` (R30), in one canonical form: indices strictly rising, no cell that holds what an
unlisted index reads as. -/
abbrev Memory := List Host.Cell

/-- What an unlisted index reads as: 0x00 (DESIGN CHOICE, log 6). -/
def Memory.blank : Byte := 0x00#8

/-- The canonical form. -/
abbrev Memory.wf (m : Memory) : Prop :=
  m.Pairwise (fun c d => c.1 < d.1) ∧ ∀ c ∈ m, c.2 ≠ Memory.blank

/-- The machine: the transport engine (R10, R11), the encoder engine (R12 to R16), the event history (R19), and two fields of the
model's own. -/
structure State where
  /-- `TE.MODE` (R10). -/
  mode : Mode
  /-- The transfer buffer of the current or last XFER (R11, R30; kept after it only for its driver to read, log 5). -/
  buf : Memory
  /-- Its logical length; after a completed XFER, the length it returned (R11, R62). -/
  len : Nat
  /-- Its capacity (R11). -/
  cap : Nat
  /-- `EE.PREV` (R12). -/
  prev : Sample
  /-- `EE.ACC` (R13). -/
  acc : Byte
  /-- `EE.LAST` (R14). -/
  last : Byte
  /-- `EE.BTN` (R15). -/
  btn : Byte
  /-- `EE.DPH` (R16). -/
  dph : DrainPhase
  /-- `EE.DDET` (R16). -/
  ddet : Byte
  /-- `H`, oldest event first (R19). -/
  history : List Event
  /-- The MODEL's own: the operations the agents perform, in order, not yet stepped (log 2). -/
  inputs : List PortWord
  /-- The MODEL's own: how many free dispatcher answers were drawn (log 3). -/
  draws : Nat
  deriving DecidableEq, Repr

/-- Why the machine stops with a fault: the three breaches of a collaborator's contract (R104). Each carries the faulted state, which
is final (log 19). All three are safe: the machine stops where the device's behaviour is not given. -/
inductive Fault where
  /-- Raised by XFER when `len > cap` (R77); safe. -/
  | lenExceedsCap (final : State)
  /-- Raised by XFER when the dispatcher's status is outside R44 (R70); safe. -/
  | dispatcherBadStatus (final : State)
  /-- Raised by XFER, and the status rows, when the dispatcher's reply is longer than `cap - 2` (R70); safe. -/
  | dispatcherOverrun (final : State)
  deriving DecidableEq, Repr

/-- Why an operation has no step. All are safe: the machine stops where the spec gives no step. -/
inductive Refusal where
  /-- Raised by exec's arm of an instruction that has no meaning yet; safe. -/
  | notModelled (mnemonic : String)
  /-- Raised by RESERVED_111 and by the decoder on selector 0b111 (R51); safe. -/
  | reservedSelector
  /-- Raised by step when the next port word decodes to no operation; safe. -/
  | undecodable (e : DecodeError)
  /-- Raised by XFER and its rows while `TE.MODE = HALTED`: no XFER has a step (R62); safe. -/
  | xferWhileHalted
  /-- Raised by DRAIN while a drain is in progress (R85); safe. -/
  | drainInProgress
  /-- Raised by DRAIN_STEP outside the LOOP phase (R86); safe. -/
  | drainNotInLoop
  /-- Raised by DRAIN_CLEAR outside the CLEAR phase (R87); safe. -/
  | drainNotAtClear
  /-- Raised by RESET WATCHDOG while `TE.MODE = RUN`: the watchdog is not armed (R121); safe. -/
  | watchdogNotArmed
  /-- Raised by a frame row or status row on a transaction the row does not describe: an ill-formed instruction, which no port word
  decodes to (log 16); safe. -/
  | operandsOfAnotherRow
  deriving DecidableEq, Repr

/-- The state after `RESET POWER_ON` at power-on (R120, R121). -/
def State.reset : State where
  mode := .run
  buf := []
  len := 0
  cap := 0
  prev := Config.prevInit
  acc := 0x00#8
  last := 0x00#8
  btn := 0x00#8
  dph := .idle
  ddet := 0x00#8
  history := [.reset .powerOn]
  inputs := []
  draws := 0

end Sys2Proof.Machine
end

