-- ==== Sys2Proof/Machine/Ops.lean ====
section
/-!
DEFINITION. The named operations over the buffer and the state: byte reads and writes (20_memory.md R30 to R34), the event history
(10_state.md R19), loading and completing an XFER (40_transport.md R62, R73), the reset of every element (70_reset_and_hazards.md
R120), and the fetch of the next input. IBF-CORE takes no exception and returns from none (60_exceptions.md R100).
-/

namespace Sys2Proof.Machine

/-- What one operation answers. -/
abbrev Result := Host.Outcome State Fault Refusal

/-! ### The buffer's cells -/

/-- The byte at an index. -/
def Memory.read : Memory → Nat → Byte
  | [], _ => Memory.blank
  | (b, v) :: m, a => if a = b then v else Memory.read m a

/-- A cell in front of `m`, left out where it holds what an unlisted index reads as. -/
def Memory.put (a : Nat) (v : Byte) (m : Memory) : Memory :=
  if v = Memory.blank then m else (a, v) :: m

/-- Write one byte, keeping the canonical form. -/
def Memory.write : Memory → Nat → Byte → Memory
  | [], a, v => Memory.put a v []
  | (b, w) :: m, a, v =>
    if a < b then Memory.put a v ((b, w) :: m)
    else if a = b then Memory.put a v m
    else (b, w) :: Memory.write m a v

/-- Write consecutive bytes from an index on. -/
def Memory.writeList : Memory → Nat → List Byte → Memory
  | m, _, [] => m
  | m, a, v :: vs => Memory.writeList (Memory.write m a v) (a + 1) vs

/-- `n` consecutive bytes from an index on. -/
def Memory.readList (m : Memory) : Nat → Nat → List Byte
  | _, 0 => []
  | a, n + 1 => Memory.read m a :: Memory.readList m (a + 1) n

/-! ### Primitives of the pseudocode -/

/-- `emit E` (R19): the history only grows, at its end. -/
def emit (e : Event) (s : State) : State :=
  { s with history := s.history ++ [e] }

/-- `buf[i]`. -/
def readBuf (i : Nat) (s : State) : Byte := s.buf.read i

/-- `buf[i] <- v`. -/
def writeBuf (i : Nat) (v : Byte) (s : State) : State :=
  { s with buf := s.buf.write i v }

/-- The reply the bus driver finds in the buffer: `buf[0..len-1]` (R40, R108). -/
def State.wire (s : State) : List Byte := s.buf.readList 0 s.len

/-- The byte at a buffer index, for the indices the buffer has (R30). -/
def State.byteAt (s : State) (i : Nat) : Option Byte :=
  if i < s.cap then some (s.buf.read i) else none

/-! ### Beginning and ending an XFER -/

/-- The driver's operands become the current transfer buffer; nothing of the last one is kept (R11, R128). -/
def loadXfer (t : Transaction) (s : State) : State :=
  { s with buf := Memory.writeList [] 0 t.buf, len := t.len, cap := t.cap }

/-- `emit XferDone(n); return n` (R62). -/
def completeXfer (n : Nat) (s : State) : State :=
  emit (.xferDone n) { s with len := n }

/-- TRAILER(n) (R73): append the checksum of `buf[0..n-1]` and return `n + 1`. -/
def trailer (n : Nat) (s : State) : State :=
  completeXfer (n + 1) (writeBuf n (crc8 (s.buf.readList 0 n)) s)

/-- A reply with a status byte and `r` payload bytes already in place (R68, R69, R72). -/
def replyWith (status : Byte) (r : Nat) (s : State) : State :=
  trailer (r + 1) (writeBuf 0 status s)

/-- XFER and its rows have a step only in RUN (R62). -/
def whenRunning (s : State) (k : Result) : Result :=
  match s.mode with
  | .run => k
  | .halted => .refused .xferWhileHalted

/-! ### Reset -/

/-- RESET(src): every element of 10_state.md at its reset value, and `Reset(src)` in the history (R120). The driver's buffer is
outside the block and stays (R120; log 5), as do the model's own fields (log 25). -/
def resetElements (src : ResetSource) (s : State) : State :=
  emit (.reset src)
    { s with
      mode := .run
      prev := Config.prevInit
      acc := 0x00#8
      last := 0x00#8
      btn := 0x00#8
      dph := .idle
      ddet := 0x00#8 }

/-! ### The next input -/

/-- The next port word, and the state without it (log 2). -/
def fetch (s : State) : Option (PortWord × State) :=
  match s.inputs with
  | [] => none
  | w :: rest => some (w, { s with inputs := rest })

/-- The refusal of a word that decodes to no operation (R51). -/
def refusalOf : DecodeError → Refusal
  | .reservedSelector => .reservedSelector
  | e => .undecodable e

end Sys2Proof.Machine
end

