-- ==== Sys2Proof/Machine/Operands.lean ====
section
/-!
DEFINITION. Operand forms: the signed reading of a byte (00_scope.md section 4), the quadrature sample and key (30_encoding.md R48,
R49), the delta table (41_encoder.md R80), the drain's difference (R86), the request's fields (20_memory.md R40) and the dispatcher's
answer (40_transport.md R76).
-/

namespace Sys2Proof.Machine

/-- `s8(v)`: the two's-complement reading. -/
def s8 (v : Byte) : Int := v.toInt

/-- `u8(n)`: `n mod 256`. -/
def u8 (n : Int) : Byte := BitVec.ofInt 8 n

/-! ### The encoder's operands -/

/-- `sample = A<<1 | B` (R48). -/
def sampleOf (a b : Bool) : Sample := BitVec.ofBool a ++ BitVec.ofBool b

/-- `key = EE.PREV<<2 | sample` (R49). -/
def keyOf (prev cur : Sample) : Key := prev ++ cur

/-- The delta table `T`, in key order (R80). UNVERIFIED: the spec's decisions D5 and D7, log 10. -/
def deltaTable : List Int :=
  [0, -1, 1, Config.dbl03, 1, 0, Config.dbl06, -1, -1, -Config.dbl06, 0, 1, -Config.dbl03, 1, -1, 0]

/-- `T[k]`. -/
def delta (k : Key) : Int := deltaTable.getD k.toNat 0

/-- The position of a sample in the clockwise cycle 11, 01, 00, 10 (R80). -/
def phase (v : Sample) : Nat :=
  if v = 0b11#2 then 0 else if v = 0b01#2 then 1 else if v = 0b00#2 then 2 else 3

/-- `diff = s8(u8(EE.ACC - EE.LAST))` (R86). -/
def diffOf (acc last : Byte) : Int := s8 (acc - last)

/-- `zext_8(w[6:0])` (R52, R87). -/
def drainWord (w : Byte) : Byte := (w.extractLsb 6 0).setWidth 8

/-! ### The request and the dispatcher's answer -/

/-- `cmd = buf[0]` (R70). -/
def commandByte (s : State) : Byte := s.buf.read 0

/-- `plen = len - 2` (R70). -/
def payloadLen (s : State) : Nat := s.len - 2

/-- `maxr = cap - 2` (R70). -/
def maxReplyLen (s : State) : Nat := s.cap - 2

/-- The request payload `buf[1..plen]` (R40, R70). -/
def payload (s : State) : List Byte := s.buf.readList 1 (payloadLen s)

/-- The code of one of the seven statuses of R44, in its order. -/
def statusCode (k : Fin 7) : Byte :=
  if k.val = 6 then 0xFF#8 else BitVec.ofNat 8 k.val

/-- The dispatcher's answer where the environment fixes none: a FREE VALUE within the contract of R76 (log 3, 4). The status is one
of the seven, the reply length is at most `maxr` unless the reply is suppressed, and the region is any `maxr` bytes. -/
def freeAnswer (s : State) : Answer :=
  let status := statusCode (Config.freeStatus s.draws (commandByte s) (payload s) (maxReplyLen s))
  let r := Config.freeReplyLen s.draws (commandByte s) (payload s) (maxReplyLen s)
  { status := status
    replyLen := if status = 0xFF#8 then r else r % (maxReplyLen s + 1)
    region := (List.range (maxReplyLen s)).map
      (Config.freeRegionByte s.draws (commandByte s) (payload s) (maxReplyLen s)) }

/-- The answer of this XFER: the one its environment fixes, or a free one. -/
def answerOf (given : Option Answer) (s : State) : Answer :=
  match given with
  | some a => a
  | none => freeAnswer s

/-- A free answer is drawn anew each time: equal requests may be answered differently (R76). -/
def countDraw (given : Option Answer) (s : State) : State :=
  match given with
  | some _ => s
  | none => { s with draws := s.draws + 1 }

end Sys2Proof.Machine
end

