-- ==== Sys2Proof/Machine/Flags.lean ====
section
/-!
DEFINITION. IBF-CORE has no flags, condition codes or predicates (10_state.md R20), so no flag is computed here; what stands in
their place are the conditions its operations test: the detent boundary (41_encoder.md R82), a qualifying button edge (R83), the
saturating count (R83) and the drain's window (R86).
-/

namespace Sys2Proof.Machine

/-- `acc mod 4 = 0`: a detent boundary (R82). -/
def atDetent (acc : Byte) : Bool := decide (acc.toNat % Config.detentStep = 0)

/-- A qualifying falling edge (R50, R83). -/
def qualifies (level : Bool) : Bool := level == Config.btnActiveLevel

/-- `min(BTN + 1, 127)` (R83). -/
def countPress (btn : Byte) : Byte := BitVec.ofNat 8 (min (btn.toNat + 1) Config.btnMax)

/-- `diff < -3` (R86). -/
def belowWindow (d : Int) : Bool := decide (d < Config.windowLow)

/-- `diff > 3` (R86). -/
def aboveWindow (d : Int) : Bool := decide (Config.windowHigh < d)

end Sys2Proof.Machine
end

