-- ==== Sys2Proof/Machine/Encoder.lean ====
section
/-!
DEFINITION. The encoder engine: QUAD_SAMPLE, BTN_EDGE, DRAIN, DRAIN_STEP and DRAIN_CLEAR (41_encoder.md R81 to R87).
-/

namespace Sys2Proof.Machine

/-- The accumulator after a sample: `u8(EE.ACC + T[k])` (R81). -/
def quadAcc (a b : Bool) (s : State) : Byte :=
  u8 (s.acc.toNat + delta (keyOf s.prev (sampleOf a b)))

/-- QUAD_SAMPLE (R81, R82). -/
def execQuadSample (a b : Bool) (s : State) : Result :=
  if atDetent (quadAcc a b s) then
    .next (emit .drainRequest { s with acc := quadAcc a b s, prev := sampleOf a b })
  else
    .next { s with acc := quadAcc a b s, prev := sampleOf a b }

/-- BTN_EDGE (R83). -/
def execBtnEdge (level : Bool) (s : State) : Result :=
  if qualifies level then .next { s with btn := countPress s.btn } else .next s

/-- DRAIN (R85). -/
def execDrain (s : State) : Result :=
  match s.dph with
  | .idle => .next { s with ddet := 0x00#8, dph := .loop }
  | .loop => .refused .drainInProgress
  | .clear => .refused .drainInProgress

/-- One iteration of the detent conversion (R86). -/
def convertDetent (s : State) : State :=
  if belowWindow (diffOf s.acc s.last) then
    { s with last := s.last - 4#8, ddet := s.ddet - 1#8 }
  else if aboveWindow (diffOf s.acc s.last) then
    { s with last := s.last + 4#8, ddet := s.ddet + 1#8 }
  else
    { s with dph := .clear }

/-- DRAIN_STEP (R86). -/
def execDrainStep (s : State) : Result :=
  match s.dph with
  | .loop => .next (convertDetent s)
  | .idle => .refused .drainNotInLoop
  | .clear => .refused .drainNotInLoop

/-- DRAIN_CLEAR (R87): the count is read, cleared and reported in one step. -/
def execDrainClear (s : State) : Result :=
  match s.dph with
  | .clear =>
    .next { emit (.drainResult (drainWord s.btn) (s8 s.ddet)) s with btn := 0x00#8, dph := .idle }
  | .idle => .refused .drainNotAtClear
  | .loop => .refused .drainNotAtClear

end Sys2Proof.Machine
end

