-- ==== Sys2Proof/Machine/System.lean ====
section
/-!
DEFINITION. RESET (70_reset_and_hazards.md R120, R121) and the reserved selector (30_encoding.md R51).
-/

namespace Sys2Proof.Machine

/-- RESET (R120): POWER_ON at any time, WATCHDOG only while TE is halted (R121). -/
def execReset (src : ResetSource) (s : State) : Result :=
  match src, s.mode with
  | .powerOn, _ => .next (resetElements .powerOn s)
  | .watchdog, .halted => .next (resetElements .watchdog s)
  | .watchdog, .run => .refused .watchdogNotArmed

/-- RESERVED_111: it names no operation and has no step, in any state (R51, R104). -/
def execReserved111 (_s : State) : Result :=
  .refused .reservedSelector

end Sys2Proof.Machine
end

