-- ==== Sys2Proof/Machine/Broadcast.lean ====
section
/-!
DEFINITION. The broadcast paths of XFER (40_transport.md R63 to R66), each first as the path's own pseudocode on the loaded state.
-/

namespace Sys2Proof.Machine

/-- A frame row: only in RUN, only on a transaction of that path, whose operands become the current buffer (R62). -/
def onPath (p : Path) (t : Transaction) (s : State) (k : State → Result) : Result :=
  whenRunning s (if pathOf t = some p then k (loadXfer t s) else .refused .operandsOfAnotherRow)

/-- BCAST_RESET (R64): the watchdog is armed and TE halts; XFER does not complete. -/
def pathBcastReset (s : State) : Result :=
  .next { emit .watchdogArm s with mode := .halted }

/-- BCAST_RESET_ADDRESS (R65): the address-management collaborator is called. -/
def pathBcastResetAddress (s : State) : Result :=
  .next (completeXfer 0 (emit .addressResetRequest s))

/-- BCAST_NOP (R66). -/
def pathBcastNop (s : State) : Result :=
  .next (completeXfer 0 s)

/-- The row BCAST_RESET (R64). -/
def execBcastReset (t : Transaction) (s : State) : Result :=
  onPath .bcastReset t s pathBcastReset

/-- The row BCAST_RESET_ADDRESS (R65). -/
def execBcastResetAddress (t : Transaction) (s : State) : Result :=
  onPath .bcastResetAddress t s pathBcastResetAddress

/-- The row BCAST_NOP (R66). -/
def execBcastNop (t : Transaction) (s : State) : Result :=
  onPath .bcastNop t s pathBcastNop

end Sys2Proof.Machine
end

