-- ==== Sys2Proof/Machine/Unicast.lean ====
section
/-!
DEFINITION. The unicast paths of XFER (40_transport.md R67 to R73).
-/

namespace Sys2Proof.Machine

/-- U_NOCAP (R67): no room for any reply, so none. -/
def pathUNocap (s : State) : Result :=
  .next (completeXfer 0 s)

/-- U_SHORT (R68): INVALID_TRANSFER, without payload. -/
def pathUShort (s : State) : Result :=
  .next (replyWith 0x03#8 0 s)

/-- U_BADCRC (R69): INVALID_CRC, without payload. -/
def pathUBadcrc (s : State) : Result :=
  .next (replyWith 0x04#8 0 s)

/-- The call of the dispatcher (R70): both events, and its in-place writes to `buf[1..maxr]`. -/
def callDispatcher (given : Option Answer) (s : State) : State :=
  { emit (.dispatchAnswer (answerOf given s).status (answerOf given s).replyLen)
      (emit (.dispatchCall (commandByte s) (payloadLen s) (maxReplyLen s)) (countDraw given s)) with
    buf := s.buf.writeList 1 ((answerOf given s).region.take (maxReplyLen s)) }

/-- What follows the dispatcher's answer (R70): suppression (R71), a fault (R104), or the reply (R72, R79). -/
def afterDispatch (status : Byte) (r : Nat) (s : State) : Result :=
  if status = 0xFF#8 then .next (completeXfer 0 s)
  else if statusDefined status = false then .fault (.dispatcherBadStatus s)
  else if maxReplyLen s < r then .fault (.dispatcherOverrun s)
  else .next (replyWith status r s)

/-- U_DISPATCH (R70). -/
def pathUDispatch (given : Option Answer) (s : State) : Result :=
  afterDispatch (answerOf given s).status (answerOf given s).replyLen (callDispatcher given s)

/-- The row U_NOCAP (R67). -/
def execUNocap (t : Transaction) (s : State) : Result :=
  onPath .uNocap t s pathUNocap

/-- The row U_SHORT (R68). -/
def execUShort (t : Transaction) (s : State) : Result :=
  onPath .uShort t s pathUShort

/-- The row U_BADCRC (R69). -/
def execUBadcrc (t : Transaction) (s : State) : Result :=
  onPath .uBadcrc t s pathUBadcrc

/-- The row UNICAST_REQUEST (R70): the dispatcher's answer is free. -/
def execUnicastRequest (t : Transaction) (s : State) : Result :=
  onPath .uDispatch t s (pathUDispatch none)

end Sys2Proof.Machine
end

