-- ==== Sys2Proof/Machine/Xfer.lean ====
section
/-!
DEFINITION. XFER, the one operation of the transport engine (40_transport.md R62), and the status rows of 30_encoding.md R44: an XFER
whose outcome carries that status (DESIGN CHOICE, log 17).
-/

namespace Sys2Proof.Machine

/-- The path a transaction takes, run on the loaded state; `len > cap` faults and does nothing else (R62, R77). -/
def runPath (t : Transaction) (given : Option Answer) (s : State) : Result :=
  match pathOf t with
  | none => .fault (.lenExceedsCap s)
  | some .bcastReset => pathBcastReset (loadXfer t s)
  | some .bcastResetAddress => pathBcastResetAddress (loadXfer t s)
  | some .bcastNop => pathBcastNop (loadXfer t s)
  | some .uNocap => pathUNocap (loadXfer t s)
  | some .uShort => pathUShort (loadXfer t s)
  | some .uBadcrc => pathUBadcrc (loadXfer t s)
  | some .uDispatch => pathUDispatch given (loadXfer t s)

/-- XFER (R62). -/
def execXfer (t : Transaction) (answer : Option Answer) (s : State) : Result :=
  whenRunning s (runPath t answer s)

/-- An XFER that ends with status `c` (R44): the dispatcher's answer is `(c, r, region)`, or TE itself produces `c`. -/
def xferEndingWith (c : Byte) (t : Transaction) (r : Nat) (region : List Byte) (s : State) : Result :=
  whenRunning s
    (if endsWithStatus c t then runPath t (some ⟨c, r, region⟩) s else .refused .operandsOfAnotherRow)

/-- The row COMMAND_OK (R44, R72). -/
def execCommandOk (t : Transaction) (r : Nat) (region : List Byte) (s : State) : Result :=
  xferEndingWith 0x00#8 t r region s

/-- The row COMMAND_FAILED (R44, R72). -/
def execCommandFailed (t : Transaction) (r : Nat) (region : List Byte) (s : State) : Result :=
  xferEndingWith 0x01#8 t r region s

/-- The row COMMAND_NOT_SUPPORTED (R44, R72). -/
def execCommandNotSupported (t : Transaction) (r : Nat) (region : List Byte) (s : State) : Result :=
  xferEndingWith 0x02#8 t r region s

/-- The row INVALID_TRANSFER (R44, R68, R79). -/
def execInvalidTransfer (t : Transaction) (r : Nat) (region : List Byte) (s : State) : Result :=
  xferEndingWith 0x03#8 t r region s

/-- The row INVALID_CRC (R44, R69, R79). -/
def execInvalidCrc (t : Transaction) (r : Nat) (region : List Byte) (s : State) : Result :=
  xferEndingWith 0x04#8 t r region s

/-- The row INVALID_ARGUMENTS (R44, R72). -/
def execInvalidArguments (t : Transaction) (r : Nat) (region : List Byte) (s : State) : Result :=
  xferEndingWith 0x05#8 t r region s

/-- The row NO_REPLY (R44, R71). -/
def execNoReply (t : Transaction) (r : Nat) (region : List Byte) (s : State) : Result :=
  xferEndingWith 0xFF#8 t r region s

end Sys2Proof.Machine
end

