-- ==== Sys2Proof/Machine/Dispatch.lean ====
section
/-!
DEFINITION. The dispatch: one arm per constructor of Instr, each one call of that instruction's meaning.
-/

namespace Sys2Proof.Machine

def exec (i : Instr) (s : State) : Host.Outcome State Fault Refusal :=
  match i with
  | .bcastReset t => Sys2Proof.Machine.execBcastReset t s
  | .bcastResetAddress t => Sys2Proof.Machine.execBcastResetAddress t s
  | .bcastNop t => Sys2Proof.Machine.execBcastNop t s
  | .uNocap t => Sys2Proof.Machine.execUNocap t s
  | .uShort t => Sys2Proof.Machine.execUShort t s
  | .uBadcrc t => Sys2Proof.Machine.execUBadcrc t s
  | .unicastRequest t => Sys2Proof.Machine.execUnicastRequest t s
  | .commandOk t r region => Sys2Proof.Machine.execCommandOk t r region s
  | .commandFailed t r region => Sys2Proof.Machine.execCommandFailed t r region s
  | .commandNotSupported t r region => Sys2Proof.Machine.execCommandNotSupported t r region s
  | .invalidTransfer t r region => Sys2Proof.Machine.execInvalidTransfer t r region s
  | .invalidCrc t r region => Sys2Proof.Machine.execInvalidCrc t r region s
  | .invalidArguments t r region => Sys2Proof.Machine.execInvalidArguments t r region s
  | .noReply t r region => Sys2Proof.Machine.execNoReply t r region s
  | .xfer t answer => Sys2Proof.Machine.execXfer t answer s
  | .quadSample a b => Sys2Proof.Machine.execQuadSample a b s
  | .btnEdge level => Sys2Proof.Machine.execBtnEdge level s
  | .drain => Sys2Proof.Machine.execDrain s
  | .drainStep => Sys2Proof.Machine.execDrainStep s
  | .drainClear => Sys2Proof.Machine.execDrainClear s
  | .reset src => Sys2Proof.Machine.execReset src s
  | .reserved111 => Sys2Proof.Machine.execReserved111 s

end Sys2Proof.Machine
end

