-- ==== Sys2Proof/Machine/Step.lean ====
section
/-!
DEFINITION. One step: the next operation that an agent performs (20_memory.md R35), and the placing of a table word as that operation.
-/

namespace Sys2Proof.Machine

/-- The next input decoded and run; while no agent has an operation to perform, nothing happens (log 2). -/
def step (s : State) : Host.Outcome State Fault Refusal :=
  match fetch s with
  | none => .next s
  | some (w, s') =>
    match decode w with
    | .ok i => exec i s'
    | .error e => .refused (refusalOf e)

/-- `s` with the instruction of a table word as the next operation (log 20): the agent that performs it presents it. -/
def State.withFetchWord (s : State) (nbits w : Nat) : State :=
  { s with inputs := tableWord nbits w :: s.inputs }

end Sys2Proof.Machine
end

