-- ==== Sys2Proof/Machine/Bus.lean ====
section
/-!
DEFINITION. Several devices on one bus (60_exceptions.md R111): each runs its own core, they share no state, and a broadcast
transaction reaches every one of them.
-/

namespace Sys2Proof.Machine

/-- One broadcast transaction on a bus: every device performs its own XFER of it (R111). R111 does not say whether the devices'
transfer buffers agree in capacity and in the bytes from `len` on: here every device is handed one and the same transaction (DESIGN
CHOICE, unsafe, log 26). -/
def broadcastToAll (t : Transaction) (devices : List State) : List Result :=
  devices.map (execXfer t none)

end Sys2Proof.Machine
end

