-- ==== Sys2Proof/WellFormed.lean ====
section
/-!
DEFINITION. When an instruction is well-formed: its operands are within the bounds of 30_encoding.md R51 and, for a frame row or a
status row, the transaction is one the row describes (40_transport.md R62, 30_encoding.md R44).
-/

namespace Sys2Proof

/-- `cap` and `len` are at most `CAP_MAX` (R51). -/
def Transaction.wf (t : Transaction) : Bool :=
  decide (t.cap ≤ Config.capMax) && decide (t.len ≤ Config.capMax)

/-- The dispatcher's region is no longer than `buf[1..cap-2]` (R76). -/
def regionFits (region : List Byte) (t : Transaction) : Bool :=
  decide (region.length ≤ t.maxReply)

/-- A frame row: the transaction takes exactly the row's path (R62). -/
def pathWf (p : Path) (t : Transaction) : Bool :=
  t.wf && decide (pathOf t = some p)

/-- A status row: the transaction can end with the row's status (R44). -/
def statusWf (c : Byte) (t : Transaction) (region : List Byte) : Bool :=
  t.wf && regionFits region t && endsWithStatus c t

/-- Well-formed instructions. -/
def Instr.wf : Instr → Bool
  | .bcastReset t => pathWf .bcastReset t
  | .bcastResetAddress t => pathWf .bcastResetAddress t
  | .bcastNop t => pathWf .bcastNop t
  | .uNocap t => pathWf .uNocap t
  | .uShort t => pathWf .uShort t
  | .uBadcrc t => pathWf .uBadcrc t
  | .unicastRequest t => pathWf .uDispatch t
  | .commandOk t _ region => statusWf 0x00#8 t region
  | .commandFailed t _ region => statusWf 0x01#8 t region
  | .commandNotSupported t _ region => statusWf 0x02#8 t region
  | .invalidTransfer t _ region => statusWf 0x03#8 t region
  | .invalidCrc t _ region => statusWf 0x04#8 t region
  | .invalidArguments t _ region => statusWf 0x05#8 t region
  | .noReply t _ region => statusWf 0xFF#8 t region
  | .xfer t none => t.wf
  | .xfer t (some a) => t.wf && regionFits a.region t
  | .quadSample _ _ => true
  | .btnEdge _ => true
  | .drain => true
  | .drainStep => true
  | .drainClear => true
  | .reset _ => true
  | .reserved111 => false

end Sys2Proof
end

