-- ==== Sys2Proof/Safety.lean ====
section
/-!
DEFINITION. The terms claims are stated in: which engine an instruction belongs to, when an operation is enabled, what the
collaborators owe (60_exceptions.md R114), the invariants (10_state.md R23, 20_memory.md R40), sequences of operations and fair runs
(70_reset_and_hazards.md R122, R126).
-/

namespace Sys2Proof

open Sys2Proof.Machine

/-! ### Kinds of instructions -/

/-- The instructions of the transport engine: XFER, its paths and its outcomes. -/
def Instr.isTransport : Instr → Bool
  | .bcastReset _ => true
  | .bcastResetAddress _ => true
  | .bcastNop _ => true
  | .uNocap _ => true
  | .uShort _ => true
  | .uBadcrc _ => true
  | .unicastRequest _ => true
  | .commandOk _ _ _ => true
  | .commandFailed _ _ _ => true
  | .commandNotSupported _ _ _ => true
  | .invalidTransfer _ _ _ => true
  | .invalidCrc _ _ _ => true
  | .invalidArguments _ _ _ => true
  | .noReply _ _ _ => true
  | .xfer _ _ => true
  | .quadSample _ _ => false
  | .btnEdge _ => false
  | .drain => false
  | .drainStep => false
  | .drainClear => false
  | .reset _ => false
  | .reserved111 => false

/-- The instructions of the encoder engine. -/
def Instr.isEncoder : Instr → Bool
  | .quadSample _ _ => true
  | .btnEdge _ => true
  | .drain => true
  | .drainStep => true
  | .drainClear => true
  | _ => false

/-- The bus transaction of a transport instruction, with the answer it carries. -/
def Instr.busInput : Instr → Option BusInput
  | .bcastReset t => some ⟨t, none⟩
  | .bcastResetAddress t => some ⟨t, none⟩
  | .bcastNop t => some ⟨t, none⟩
  | .uNocap t => some ⟨t, none⟩
  | .uShort t => some ⟨t, none⟩
  | .uBadcrc t => some ⟨t, none⟩
  | .unicastRequest t => some ⟨t, none⟩
  | .commandOk t r region => some ⟨t, some ⟨0x00#8, r, region⟩⟩
  | .commandFailed t r region => some ⟨t, some ⟨0x01#8, r, region⟩⟩
  | .commandNotSupported t r region => some ⟨t, some ⟨0x02#8, r, region⟩⟩
  | .invalidTransfer t r region => some ⟨t, some ⟨0x03#8, r, region⟩⟩
  | .invalidCrc t r region => some ⟨t, some ⟨0x04#8, r, region⟩⟩
  | .invalidArguments t r region => some ⟨t, some ⟨0x05#8, r, region⟩⟩
  | .noReply t r region => some ⟨t, some ⟨0xFF#8, r, region⟩⟩
  | .xfer t a => some ⟨t, a⟩
  | _ => none

/-! ### What the environment owes, and when an operation is enabled -/

/-- The dispatcher keeps its contract (R76, R114): a status of R44, and no more than `cap - 2` bytes unless the reply is suppressed. -/
def Answer.keepsContract (a : Answer) (t : Transaction) : Bool :=
  statusDefined a.status && (a.status == 0xFF#8 || decide (a.replyLen ≤ t.maxReply))

/-- The bus driver and the dispatcher keep their duties (R114). -/
def BusInput.keepsDuties (b : BusInput) : Bool :=
  decide (b.transaction.len ≤ b.transaction.cap) && b.answer.all (·.keepsContract b.transaction)

/-- The duties of R114, for any instruction: only bus transactions carry any. -/
def Instr.keepsDuties (i : Instr) : Bool :=
  i.busInput.all BusInput.keepsDuties

/-- The enabling condition of each operation (R62, R85, R86, R87, R121). -/
def Instr.enabled (i : Instr) (s : State) : Bool :=
  match i with
  | .drain => decide (s.dph = .idle)
  | .drainStep => decide (s.dph = .loop)
  | .drainClear => decide (s.dph = .clear)
  | .quadSample _ _ => true
  | .btnEdge _ => true
  | .reset .powerOn => true
  | .reset .watchdog => decide (s.mode = .halted)
  | .reserved111 => false
  | _ => decide (s.mode = .run)

/-! ### Transactions by their conditions -/

/-- A broadcast transaction within its buffer (R63, R77). -/
def IsBroadcast (t : Transaction) : Prop := t.addr = 0 ∧ t.len ≤ t.cap

/-- A unicast transaction at or above the capacity floor (R67), within its buffer (R77). -/
def IsUnicast (t : Transaction) : Prop := t.addr ≠ 0 ∧ 2 ≤ t.cap ∧ t.len ≤ t.cap

/-- A verified unicast request (R43, R70). -/
def IsVerified (t : Transaction) : Prop := IsUnicast t ∧ 2 ≤ t.len ∧ crc8 t.frame = 0x00#8

/-- What the buffer holds at an index after the dispatcher's in-place writes (R70, R74): its region from index 1 on, and the driver's
byte elsewhere. -/
def afterRegion (region : List Byte) (t : Transaction) (i : Nat) : Option Byte :=
  if 1 ≤ i ∧ i ≤ region.length then region[i - 1]? else t.buf[i]?

/-- What the two dispatcher faults leave (R70, R104; the fault carries its state, log 19): the transaction loaded, both dispatcher events
and no `XferDone`, the dispatcher's region written as far as it fits (log 18), every other byte the driver's, nothing else changed. -/
def CalledDispatcher (t : Transaction) (a : Answer) (cmd : Byte) (s f : State) : Prop :=
  f = { s with
    buf := f.buf
    len := t.len
    cap := t.cap
    history := s.history ++
      [.dispatchCall cmd (t.len - 2) (t.cap - 2), .dispatchAnswer a.status a.replyLen] } ∧
  ∀ i, f.byteAt i = afterRegion (a.region.take (t.cap - 2)) t i

/-! ### Invariants -/

/-- R23: (a) the count is capped, (b) LAST is a multiple of 4, (c) ACC is at the phase of PREV modulo 4. -/
def EncoderInv (s : State) : Prop :=
  s.btn.toNat ≤ 127 ∧ s.last.toNat % 4 = 0 ∧ s.acc.toNat % 4 = phase s.prev

/-- The buffer keeps its canonical form and its bounds (R11, R30, R40). -/
def BufferInv (s : State) : Prop :=
  Memory.wf s.buf ∧ (∀ c ∈ s.buf, c.1 < s.cap) ∧ s.len ≤ s.cap ∧ s.cap ≤ Config.capMax

/-- Whether the watchdog is armed, read off the history (R109): armed by `WatchdogArm`, and no longer after a reset. -/
def watchdogArmed (h : List Event) : Bool :=
  h.foldl (fun armed e => match e with | .watchdogArm => true | .reset _ => false | _ => armed) false

/-- TE is halted exactly while the watchdog is armed (R64, R109, R121). -/
def WatchdogInv (s : State) : Prop :=
  watchdogArmed s.history = decide (s.mode = .halted)

/-- The invariant of the machine. -/
def Inv (s : State) : Prop :=
  EncoderInv s ∧ BufferInv s ∧ WatchdogInv s

/-! ### Sequences and runs -/

/-- A sequence of operations, in order, up to the first that has no step (R35, R53). -/
def execAll : List Instr → State → Result
  | [], s => .next s
  | i :: is, s =>
    match exec i s with
    | .next t => execAll is t
    | .fault r => .fault r
    | .refused r => .refused r

/-- How many qualifying presses a sequence holds (R83). -/
def presses : List Instr → Nat
  | [] => 0
  | .btnEdge l :: is => (if qualifies l then 1 else 0) + presses is
  | _ :: is => presses is

/-- The detents a complete drain of a still accumulator counts, for the difference on entry (R89). -/
def detentsOf (d : Int) : Int :=
  if Config.windowHigh < d then (d - 4) / 4 + 1
  else if d < Config.windowLow then -((-d - 4) / 4 + 1)
  else 0

/-- `DRAIN*` for a still accumulator (R53): DRAIN, one DRAIN_STEP per detent and the one that ends the loop, DRAIN_CLEAR. -/
def drainStar (s : State) : List Instr :=
  .drain :: (List.replicate ((detentsOf (diffOf s.acc s.last)).natAbs + 1) .drainStep ++ [.drainClear])

/-- An infinite run: states and the operations between them, any interleaving of the agents (R35, R102). -/
structure Run where
  state : Nat → State
  op : Nat → Instr
  moves : ∀ n, exec (op n) (state n) = .next (state (n + 1))

/-- Weak fairness of the watchdog (R122): it does not leave TE halted for ever. -/
def Run.watchdogFair (r : Run) : Prop :=
  ∀ n, (∀ m, n ≤ m → (r.state m).mode = .halted) → ∃ m, n ≤ m ∧ r.op m = .reset .watchdog

/-- The main context's duty (R114): a drain once started is kept stepping, unless a reset abandons it (R120). -/
def Run.drainFair (r : Run) : Prop :=
  ∀ n, (r.state n).dph ≠ .idle →
    ∃ m, n ≤ m ∧ (r.op m = .drainStep ∨ r.op m = .drainClear ∨ ∃ src, r.op m = .reset src)

/-- The scheduler's duty (R126): every `DrainRequest` is eventually followed by a DRAIN. -/
def Run.schedulerFair (r : Run) : Prop :=
  ∀ n, (r.state (n + 1)).history = (r.state n).history ++ [.drainRequest] → ∃ m, n < m ∧ r.op m = .drain

end Sys2Proof
end

