-- ==== Sys2Proof/Certificates/Slice0/Obligations.lean ====
section
/-!
DEFINITION. The statements for the provers, from the numbered rules of spec/. OBLIGATIONS.json lists them; Sys2Proof/Tests/Slice0.lean
shows for each statement with hypotheses a state and operands that meet them.
-/

open Sys2Proof Sys2Proof.Machine

/-! ### Encoding -/

/-- Decoding the encoding of any well-formed instruction gives it back, whatever its operands (30_encoding.md R41, R44, R51; the
layout of a port word is the model's, log 22, and so are what makes a row well-formed, log 16, 17, and the region bound, log 18). -/
def Obligations.DecodeOfEncode : Prop :=
  ∀ i : Instr, i.wf = true → decode (encode i) = .ok i

/-- A port operation's word has one meaning: its instruction encodes to the same word (R51). -/
def Obligations.EncodeOfDecodedOperation : Prop :=
  ∀ (bits : List Bool) (bus : Option BusInput) (i : Instr),
    decode (.op bits bus) = .ok i → encode i = .op bits bus

/-- The decoder gives only well-formed instructions: the bounds of R51, and the conditions of the row (R44, R62). Four parts of it are
the model's choices: that a region longer than `cap - 2` is refused by the decoder (log 18), that no port word decodes to a row on
another row's transaction (log 16), what a status row stands for (log 17), and the layout of a port word (log 22). -/
def Obligations.DecodedIsWellFormed : Prop :=
  ∀ (w : PortWord) (i : Instr), decode w = .ok i → i.wf = true

/-- A few words: port operations written out from the patterns of R51, and frames by the codes of R44 and R45. That a frame is a port
word of its own kind is the model's choice (log 22), and so is that a frame with its answer decodes to a status row, the last clause
(log 17). -/
def Obligations.WordsOfTheTable : Prop :=
  decode (.op [false, false, true, false, true] none) = .ok (.quadSample false true) ∧
  decode (.op [false, true, false, true] none) = .ok (.btnEdge true) ∧
  decode (.op [true, true, false, true] none) = .ok (.reset .watchdog) ∧
  decode (.frame ⟨⟨0, [0x06#8, 0x00#8], 2⟩, none⟩) = .ok (.bcastReset ⟨0, [0x06#8, 0x00#8], 2⟩) ∧
  decode (.frame ⟨⟨0, [0x04#8], 1⟩, none⟩) = .ok (.bcastResetAddress ⟨0, [0x04#8], 1⟩) ∧
  decode (.frame ⟨⟨16, [0x01#8, 0x07#8], 2⟩, none⟩) = .ok (.unicastRequest ⟨16, [0x01#8, 0x07#8], 2⟩) ∧
  decode (.frame ⟨⟨16, [0x01#8, 0x07#8], 2⟩, some ⟨0x05#8, 0, []⟩⟩) =
    .ok (.invalidArguments ⟨16, [0x01#8, 0x07#8], 2⟩ 0 [])

/-- The reserved selector 0b111 names no operation and has no step, in any state (R51, R104). -/
def Obligations.ReservedSelectorHasNoStep : Prop :=
  ∀ s : State,
    exec .reserved111 s = .refused .reservedSelector ∧
    (∀ rest, s.inputs = .op [true, true, true] none :: rest → step s = .refused .reservedSelector)

/-! ### The step -/

/-- A step runs the decoded instruction: where the next input decodes to `i`, the step is `exec i` on the state without that input
(the model's own field `inputs`, log 2). -/
def Obligations.StepRunsDecodedInstruction : Prop :=
  ∀ (s : State) (w : PortWord) (rest : List PortWord) (i : Instr),
    s.inputs = w :: rest → decode w = .ok i → step s = exec i { s with inputs := rest }

/-- The invariant of R23, of the buffer (R11, R40) and of the watchdog (R109) holds after every step from every state where it
holds. -/
def Obligations.StepKeepsInvariant : Prop :=
  ∀ s u : State, Inv s → step s = .next u → Inv u

/-- The invariant holds after reset (R120). -/
def Obligations.ResetMeetsInvariant : Prop := Inv State.reset

/-- The history only grows: every operation appends its events at the end (R19). -/
def Obligations.HistoryOnlyGrows : Prop :=
  ∀ (i : Instr) (s u : State), exec i s = .next u → ∃ events, u.history = s.history ++ events

/-- While the bus driver and the dispatcher keep their duties (R114), a well-formed operation steps exactly when its rule enables it
(R62, R85, R86, R87, R121). That a request with a free answer always completes rests on the free answer keeping its contract (log 4),
that the encoder steps while TE is halted is the spec's decision D17 (log 14), that an operation that is not enabled is refused is
log 15, and which transactions a status row takes is log 17. -/
def Obligations.StepsExactlyWhenEnabled : Prop :=
  ∀ (i : Instr) (s : State), i.wf = true → i.keepsDuties = true →
    ((∃ u, exec i s = .next u) ↔ i.enabled s = true)

/-! ### Reset -/

/-- RESET sets every element to its reset value, appends `Reset(src)` and changes nothing else: the driver's buffer is outside the
block (R120). POWER_ON at any time, WATCHDOG while halted. -/
def Obligations.ResetSetsEveryElement : Prop :=
  ∀ (src : ResetSource) (s : State), (src = .powerOn ∨ s.mode = .halted) →
    exec (.reset src) s = .next
      { s with
        mode := .run
        prev := 0b11#2
        acc := 0x00#8
        last := 0x00#8
        btn := 0x00#8
        dph := .idle
        ddet := 0x00#8
        history := s.history ++ [.reset src] }

/-- RESET WATCHDOG has no step while TE runs (R121). -/
def Obligations.WatchdogResetNeedsHalt : Prop :=
  ∀ s : State, s.mode = .run → exec (.reset .watchdog) s = .refused .watchdogNotArmed

/-- The state every run starts in is the one RESET POWER_ON leaves, from a history still empty (R19, R121). -/
def Obligations.InitialStateIsAfterPowerOn : Prop :=
  ∀ s : State, s.history = [] → ∃ u, exec (.reset .powerOn) s = .next u ∧
    u = { State.reset with buf := s.buf, len := s.len, cap := s.cap, inputs := s.inputs, draws := s.draws }

/-- Only RESET leaves HALTED, and only a broadcast RESET enters it (R10, R113). -/
def Obligations.HaltIsEnteredAndLeftOnlyByReset : Prop :=
  ∀ (i : Instr) (s u : State), exec i s = .next u →
    (s.mode = .halted → u.mode = .run → ∃ src, i = .reset src) ∧
    (s.mode = .run → u.mode = .halted → ∃ b, i.busInput = some b ∧ IsBroadcast b.transaction ∧
      b.transaction.frame.head? = some 0x06#8)

/-- While TE is halted no XFER has a step, in any of its forms (R62, R64). -/
def Obligations.NoXferWhileHalted : Prop :=
  ∀ (i : Instr) (s : State), i.isTransport = true → s.mode = .halted → exec i s = .refused .xferWhileHalted

/-- In every fair run a halted state is followed by a reset, until which TE stays halted (R122). -/
def Obligations.FairRunLeavesHalt : Prop :=
  ∀ (r : Run) (n : Nat), r.watchdogFair → (r.state n).mode = .halted →
    ∃ m, n ≤ m ∧ (r.op m = .reset .watchdog ∨ r.op m = .reset .powerOn) ∧
      (∀ k, n ≤ k → k ≤ m → (r.state k).mode = .halted) ∧ (r.state (m + 1)).mode = .run

/-! ### The checksum -/

/-- Every value of the vectors T-C1 (the check value), T-C2 (empty and zero), T-C3 (single bytes) and T-C4 (multi-byte lists), by
R60 (the polynomial is the spec's decision D4). -/
def Obligations.CrcCheckValues : Prop :=
  crc8 [0x31#8, 0x32#8, 0x33#8, 0x34#8, 0x35#8, 0x36#8, 0x37#8, 0x38#8, 0x39#8] = 0xF4#8 ∧
  crc8 [] = 0x00#8 ∧ crc8 [0x00#8] = 0x00#8 ∧
  [0x00#8, 0x01#8, 0x02#8, 0x03#8, 0x04#8, 0x05#8, 0x06#8, 0x10#8, 0x7F#8, 0x80#8, 0x99#8, 0xFF#8].map (fun b => crc8 [b]) =
    [0x00#8, 0x07#8, 0x0E#8, 0x09#8, 0x1C#8, 0x1B#8, 0x12#8, 0x70#8, 0x7A#8, 0x89#8, 0xC6#8, 0xF3#8] ∧
  crc8 [0x01#8, 0x12#8, 0x34#8] = 0x9A#8 ∧ crc8 [0x00#8, 0x12#8, 0x34#8] = 0xF1#8 ∧
  crc8 [0x12#8, 0x34#8] = 0xF1#8 ∧ crc8 [0x34#8, 0x12#8] = 0xD3#8 ∧
  crc8 [0x20#8, 0xAB#8] = 0xF6#8 ∧ crc8 [0x10#8, 0x99#8] = 0x91#8 ∧
  crc8 [0x03#8, 0x55#8, 0xAA#8] = 0xAF#8 ∧ crc8 [0x00#8, 0x55#8, 0xAA#8] = 0x12#8 ∧
  crc8 [0x10#8, 0x00#8] = 0x57#8 ∧ crc8 [0x01#8, 0x00#8] = 0x15#8 ∧
  crc8 [0x01#8, 0x02#8, 0x03#8, 0x04#8] = 0xE3#8

/-- A frame `d` with one more byte `c` verifies exactly when `c` is the checksum of the bytes before it (R43). The source's
self-verifying property (R61) is one direction. -/
def Obligations.FrameVerifiesIffChecksumAppended : Prop :=
  ∀ (d : List Byte) (c : Byte), crc8 (d ++ [c]) = 0x00#8 ↔ c = crc8 d

/-- A verified request with any one byte changed is answered with INVALID_CRC (R60, R69). -/
def Obligations.SingleByteCorruptionIsAnswered : Prop :=
  ∀ (addr : Nat) (x y tail : List Byte) (b b' : Byte) (answer : Option Answer) (s : State),
    s.mode = .run → addr ≠ 0 → 2 ≤ (x ++ b :: y).length → crc8 (x ++ b :: y) = 0x00#8 → b ≠ b' →
    ∃ u, exec (.xfer ⟨addr, (x ++ b' :: y) ++ tail, (x ++ b :: y).length⟩ answer) s = .next u ∧
      u.wire = [0x04#8, 0x1C#8] ∧ u.history = s.history ++ [.xferDone 2]

/-! ### The transfer buffer -/

/-- Loading an XFER's operands makes the buffer hold the driver's bytes, index by index, and nothing at or above `cap` (R11, R30). -/
def Obligations.LoadedBufferHoldsDriversBytes : Prop :=
  ∀ (t : Transaction) (s : State) (i : Nat), (loadXfer t s).byteAt i = t.buf[i]?

/-- Nothing of the last transfer buffer is seen by an XFER: with another buffer left behind, the same next state (R11, R128). -/
def Obligations.XferIgnoresLastBuffer : Prop :=
  ∀ (i : Instr) (s u : State) (buf : Memory) (len cap : Nat), i.isTransport = true → exec i s = .next u →
    exec i { s with buf := buf, len := len, cap := cap } = .next u

/-! ### Broadcast -/

/-- BCAST_RESET arms the watchdog and halts TE; XFER does not complete, no byte of the buffer is written, and the encoder engine is
untouched (R64). -/
def Obligations.BroadcastResetHalts : Prop :=
  ∀ (t : Transaction) (answer : Option Answer) (s : State),
    s.mode = .run → IsBroadcast t → t.frame.head? = some 0x06#8 →
    exec (.bcastReset t) s =
      .next { loadXfer t s with mode := .halted, history := s.history ++ [.watchdogArm] } ∧
    exec (.xfer t answer) s = exec (.bcastReset t) s

/-- BCAST_RESET_ADDRESS calls the address collaborator and returns 0, writing no state and no byte (R65). -/
def Obligations.BroadcastResetAddressCallsCollaborator : Prop :=
  ∀ (t : Transaction) (answer : Option Answer) (s : State),
    s.mode = .run → IsBroadcast t → t.frame.head? = some 0x04#8 →
    exec (.bcastResetAddress t) s =
      .next { loadXfer t s with len := 0, history := s.history ++ [.addressResetRequest, .xferDone 0] } ∧
    exec (.xfer t answer) s = exec (.bcastResetAddress t) s

/-- BCAST_NOP: an empty broadcast, or any other first byte, returns 0 and writes nothing, whatever the capacity (R66). -/
def Obligations.BroadcastNopIsSilent : Prop :=
  ∀ (t : Transaction) (answer : Option Answer) (s : State),
    s.mode = .run → IsBroadcast t → t.frame.head? ≠ some 0x04#8 → t.frame.head? ≠ some 0x06#8 →
    exec (.bcastNop t) s =
      .next { loadXfer t s with len := 0, history := s.history ++ [.xferDone 0] } ∧
    exec (.xfer t answer) s = exec (.bcastNop t) s

/-- A broadcast reaches every device of a bus: RESET halts each of them, with its watchdog armed (R111; that every device is handed one
and the same transaction is the model's choice, log 26). -/
def Obligations.BroadcastResetReachesEveryDevice : Prop :=
  ∀ (t : Transaction) (devices : List State),
    IsBroadcast t → t.frame.head? = some 0x06#8 → (∀ d ∈ devices, d.mode = .run) →
    broadcastToAll t devices =
      devices.map fun d =>
        .next { loadXfer t d with mode := .halted, history := d.history ++ [.watchdogArm] }

/-! ### Unicast -/

/-- U_NOCAP: below the capacity floor nothing is produced, even for a short frame (R67). -/
def Obligations.NoCapacityNoReply : Prop :=
  ∀ (t : Transaction) (answer : Option Answer) (s : State),
    s.mode = .run → t.addr ≠ 0 → t.cap < 2 → t.len ≤ t.cap →
    exec (.uNocap t) s =
      .next { loadXfer t s with len := 0, history := s.history ++ [.xferDone 0] } ∧
    exec (.xfer t answer) s = exec (.uNocap t) s

/-- U_SHORT: the reply is INVALID_TRANSFER and its checksum, whatever the buffer held; every byte from index 2 on is kept, the
dispatcher is not called, and nothing else changes (R68). -/
def Obligations.ShortFrameIsAnswered : Prop :=
  ∀ (t : Transaction) (answer : Option Answer) (s : State),
    s.mode = .run → IsUnicast t → t.len < 2 →
    ∃ u, exec (.uShort t) s = .next u ∧ exec (.xfer t answer) s = .next u ∧
      u = { s with buf := u.buf, len := 2, cap := t.cap, history := s.history ++ [.xferDone 2] } ∧
      u.byteAt 0 = some 0x03#8 ∧ u.byteAt 1 = some 0x09#8 ∧ (∀ i, 2 ≤ i → u.byteAt i = t.buf[i]?)

/-- U_BADCRC: the reply is INVALID_CRC and its checksum; every byte from index 2 on is kept, the dispatcher is not called, and nothing
else changes (R69). -/
def Obligations.BadChecksumIsAnswered : Prop :=
  ∀ (t : Transaction) (answer : Option Answer) (s : State),
    s.mode = .run → IsUnicast t → 2 ≤ t.len → crc8 t.frame ≠ 0x00#8 →
    ∃ u, exec (.uBadcrc t) s = .next u ∧ exec (.xfer t answer) s = .next u ∧
      u = { s with buf := u.buf, len := 2, cap := t.cap, history := s.history ++ [.xferDone 2] } ∧
      u.byteAt 0 = some 0x04#8 ∧ u.byteAt 1 = some 0x1C#8 ∧ (∀ i, 2 ≤ i → u.byteAt i = t.buf[i]?)

/-- A verified request whose dispatcher answers a status and `r` payload bytes is replied to with them (R72): the three events in
order (R70), the status at index 0, 0x03 and 0x04 among the rest (R79, the spec's decision D22), the payload after it, the checksum at
index `r + 1` (R73), the dispatcher's or the driver's bytes beyond, and nothing else changes. The region's place is R76 and the spec's
decision D26, and that a shorter region leaves the driver's bytes is log 18. -/
def Obligations.DispatcherAnswerBecomesReply : Prop :=
  ∀ (t : Transaction) (c : Byte) (r : Nat) (region : List Byte) (cmd : Byte) (s : State),
    s.mode = .run → IsVerified t → t.frame.head? = some cmd →
    c.toNat ≤ 0x05 → r ≤ t.cap - 2 → region.length ≤ t.cap - 2 →
    ∃ u, exec (.xfer t (some ⟨c, r, region⟩)) s = .next u ∧
      u = { s with
        buf := u.buf
        len := r + 2
        cap := t.cap
        history := s.history ++
          [.dispatchCall cmd (t.len - 2) (t.cap - 2), .dispatchAnswer c r, .xferDone (r + 2)] } ∧
      u.byteAt 0 = some c ∧
      (∀ i, 1 ≤ i → i ≤ r → u.byteAt i = afterRegion region t i) ∧
      u.byteAt (r + 1) = some (crc8 (u.wire.take (r + 1))) ∧
      (∀ i, r + 2 ≤ i → u.byteAt i = afterRegion region t i)

/-- NO_REPLY suppresses the reply: XFER returns 0, whatever the reply length, and only the dispatcher's region is written (R70, R71).
That the row NO_REPLY is such an XFER is log 17, the region's place is R76 and the spec's decision D26, and that a shorter region leaves
the driver's bytes is log 18. -/
def Obligations.NoReplySuppressesReply : Prop :=
  ∀ (t : Transaction) (r : Nat) (region : List Byte) (cmd : Byte) (s : State),
    s.mode = .run → IsVerified t → t.frame.head? = some cmd → region.length ≤ t.cap - 2 →
    ∃ u, exec (.noReply t r region) s = .next u ∧ exec (.xfer t (some ⟨0xFF#8, r, region⟩)) s = .next u ∧
      u = { s with
        buf := u.buf
        len := 0
        cap := t.cap
        history := s.history ++
          [.dispatchCall cmd (t.len - 2) (t.cap - 2), .dispatchAnswer 0xFF#8 r, .xferDone 0] } ∧
      (∀ i, u.byteAt i = afterRegion region t i)

/-- Each status row, for a verified request, is the XFER in which the dispatcher answers that status, and its reply carries the status
unchanged (R44, R79; that a row stands for such an XFER is the model's choice, log 17). -/
def Obligations.StatusRowsRelayTheirStatus : Prop :=
  ∀ (t : Transaction) (r : Nat) (region : List Byte) (s : State),
    s.mode = .run → IsVerified t → r ≤ t.cap - 2 → region.length ≤ t.cap - 2 →
    ∀ row ∈ [((0x00#8 : Byte), Instr.commandOk t r region), (0x01#8, .commandFailed t r region),
        (0x02#8, .commandNotSupported t r region), (0x03#8, .invalidTransfer t r region),
        (0x04#8, .invalidCrc t r region), (0x05#8, .invalidArguments t r region)],
      ∃ u, exec row.2 s = .next u ∧ exec (.xfer t (some ⟨row.1, r, region⟩)) s = .next u ∧
        u.wire.head? = some row.1 ∧ u.wire.length = r + 2 ∧ crc8 u.wire = 0x00#8

/-- The two statuses TE produces itself: INVALID_TRANSFER for a short frame, INVALID_CRC for a bad checksum, with no dispatcher call
(R44, R68, R69, R101; log 17). -/
def Obligations.TransportStatusesAreProducedByTransport : Prop :=
  ∀ (t : Transaction) (r : Nat) (region : List Byte) (s : State), s.mode = .run → IsUnicast t →
    (t.len < 2 → ∃ u, exec (.invalidTransfer t r region) s = .next u ∧
      u.wire = [0x03#8, 0x09#8] ∧ u.history = s.history ++ [.xferDone 2]) ∧
    (2 ≤ t.len → crc8 t.frame ≠ 0x00#8 → ∃ u, exec (.invalidCrc t r region) s = .next u ∧
      u.wire = [0x04#8, 0x1C#8] ∧ u.history = s.history ++ [.xferDone 2])

/-- A verified request completes whatever the dispatcher freely answers within its contract: suppressed, or replied to with a status of
R44, a verifying checksum and at most `cap` bytes. Outside the buffer, its lengths, the history and the draws nothing changes; a
suppressed reply leaves index 0, and a reply shorter than the buffer leaves its last byte (R70, R74, R76; the answer is a free value,
log 3). -/
def Obligations.VerifiedRequestCompletes : Prop :=
  ∀ (t : Transaction) (cmd : Byte) (s : State),
    s.mode = .run → IsVerified t → t.frame.head? = some cmd →
    ∃ (u : State) (c : Byte) (r : Nat),
      exec (.unicastRequest t) s = .next u ∧ exec (.xfer t none) s = .next u ∧
      u.history = s.history ++
        [.dispatchCall cmd (t.len - 2) (t.cap - 2), .dispatchAnswer c r, .xferDone u.len] ∧
      u = { s with buf := u.buf, len := u.len, cap := t.cap, history := u.history, draws := u.draws } ∧
      (u.len < t.cap → u.byteAt (t.cap - 1) = t.buf[t.cap - 1]?) ∧
      ((c = 0xFF#8 ∧ u.len = 0 ∧ u.byteAt 0 = t.buf[0]?) ∨
        (c.toNat ≤ 0x05 ∧ u.len = r + 2 ∧ u.len ≤ t.cap ∧ u.wire.head? = some c ∧ crc8 u.wire = 0x00#8))

/-- Every command byte reaches the dispatcher unchanged, with the payload's length and the remaining capacity (R46, R70). -/
def Obligations.EveryCommandReachesDispatcher : Prop :=
  ∀ (addr : Nat) (cmd : Byte) (body tail : List Byte) (a : Answer) (s : State),
    s.mode = .run → addr ≠ 0 →
    let frame := (cmd :: body) ++ [crc8 (cmd :: body)]
    let t : Transaction := ⟨addr, frame ++ tail, frame.length⟩
    a.keepsContract t = true →
    ∃ u events, exec (.xfer t (some a)) s = .next u ∧
      u.history = s.history ++
        .dispatchCall cmd body.length (body.length + tail.length) :: .dispatchAnswer a.status a.replyLen :: events

/-- `len > cap` faults and does nothing else: the faulted state is the state before (R77). -/
def Obligations.LenAboveCapFaults : Prop :=
  ∀ (t : Transaction) (answer : Option Answer) (s : State),
    s.mode = .run → t.cap < t.len → exec (.xfer t answer) s = .fault (.lenExceedsCap s)

/-- A dispatcher's breach of contract faults (R47, R70, R104; the spec's decisions D22 and D26): a status outside the enumeration, and
a reply longer than `cap - 2`. The faulted state has both dispatcher events and no XferDone, the region's writes with index 0 and the
last byte kept, and TE's mode and all encoder state as before (that the fault carries this state is log 19; a region of another length
is log 18). -/
def Obligations.DispatcherBreachFaults : Prop :=
  ∀ (t : Transaction) (a : Answer) (cmd : Byte) (s : State),
    s.mode = .run → IsVerified t → t.frame.head? = some cmd →
    (0x05 < a.status.toNat → a.status ≠ 0xFF#8 →
      ∃ f, exec (.xfer t (some a)) s = .fault (.dispatcherBadStatus f) ∧ CalledDispatcher t a cmd s f ∧
        f.byteAt 0 = some cmd ∧ f.byteAt (t.cap - 1) = t.buf[t.cap - 1]?) ∧
    (a.status.toNat ≤ 0x05 → t.cap - 2 < a.replyLen →
      ∃ f, exec (.xfer t (some a)) s = .fault (.dispatcherOverrun f) ∧ CalledDispatcher t a cmd s f ∧
        f.byteAt 0 = some cmd ∧ f.byteAt (t.cap - 1) = t.buf[t.cap - 1]?)

/-- XFER is its row: running a transaction as XFER is running the frame or status row that describes it, in every state (R62). -/
def Obligations.XferIsItsRow : Prop :=
  ∀ (b : BusInput) (s : State), exec (.xfer b.transaction b.answer) s = exec (frameInstr b) s

/-- What holds of every XFER that completes (R78, its clauses (a) to (f)). -/
def Obligations.CompletedXferProperties : Prop :=
  ∀ (t : Transaction) (answer : Option Answer) (s u : State),
    exec (.xfer t answer) s = .next u → u.mode = .run →
    (u.len = 0 ∨ (2 ≤ u.len ∧ u.len ≤ t.cap)) ∧
    (2 ≤ u.len → crc8 u.wire = 0x00#8 ∧ ∃ c, u.wire.head? = some c ∧ c.toNat ≤ 0x05) ∧
    (t.addr = 0 → u.len = 0) ∧
    (t.addr ≠ 0 → 2 ≤ t.cap → t.len < 2 → u.wire = [0x03#8, 0x09#8]) ∧
    (t.addr ≠ 0 → 2 ≤ t.cap → 2 ≤ t.len → crc8 t.frame ≠ 0x00#8 → u.wire = [0x04#8, 0x1C#8]) ∧
    (∀ cmd plen maxr, .dispatchCall cmd plen maxr ∈ u.history.drop s.history.length → IsVerified t)

/-! ### The two engines -/

/-- The transport engine neither reads nor writes encoder state: with other encoder state the same XFER gives the same next state but
for it, and leaves it as it was (R1). -/
def Obligations.TransportLeavesEncoderAlone : Prop :=
  ∀ (i : Instr) (s u : State) (prev : Sample) (acc last btn ddet : Byte) (dph : DrainPhase),
    i.isTransport = true → exec i s = .next u →
    (u.prev = s.prev ∧ u.acc = s.acc ∧ u.last = s.last ∧ u.btn = s.btn ∧ u.dph = s.dph ∧ u.ddet = s.ddet) ∧
    exec i { s with prev := prev, acc := acc, last := last, btn := btn, dph := dph, ddet := ddet } =
      .next { u with prev := prev, acc := acc, last := last, btn := btn, dph := dph, ddet := ddet }

/-- The encoder engine neither reads nor writes transport state, and runs on while TE is halted (R1, R64). -/
def Obligations.EncoderLeavesTransportAlone : Prop :=
  ∀ (i : Instr) (s u : State) (mode : Mode) (buf : Memory) (len cap draws : Nat),
    i.isEncoder = true → exec i s = .next u →
    (u.mode = s.mode ∧ u.buf = s.buf ∧ u.len = s.len ∧ u.cap = s.cap ∧ u.draws = s.draws) ∧
    exec i { s with mode := mode, buf := buf, len := len, cap := cap, draws := draws } =
      .next { u with mode := mode, buf := buf, len := len, cap := cap, draws := draws }

/-- Each encoder element has the writers the state table names, RESET apart (R12 to R16). -/
def Obligations.EncoderElementsHaveTheirWriters : Prop :=
  ∀ (i : Instr) (s u : State), exec i s = .next u → (∀ src, i ≠ .reset src) →
    (u.prev ≠ s.prev ∨ u.acc ≠ s.acc → ∃ a b, i = .quadSample a b) ∧
    (u.last ≠ s.last → i = .drainStep) ∧
    (u.btn ≠ s.btn → i = .drainClear ∨ ∃ l, i = .btnEdge l) ∧
    (u.dph ≠ s.dph → i = .drain ∨ i = .drainStep ∨ i = .drainClear) ∧
    (u.ddet ≠ s.ddet → i = .drain ∨ i = .drainStep)

/-- No encoder operation raises a fault, in any state (R106). -/
def Obligations.EncoderRaisesNoFault : Prop :=
  ∀ (i : Instr) (s : State) (f : Fault), i.isEncoder = true → exec i s ≠ .fault f

/-! ### Edges -/

/-- The table has the entries of R80, each congruent to the movement of phase modulo 4 (their signs are the spec's decisions D5 and
D7). -/
def Obligations.DeltaTableEntries : Prop :=
  deltaTable = [0, -1, 1, 2, 1, 0, 2, -1, -1, -2, 0, 1, -2, 1, -1, 0] ∧
  ∀ p c : Sample, (delta (keyOf p c) - (phase c - phase p)) % 4 = 0 ∧ delta (keyOf p c) = -delta (keyOf c p)

/-- QUAD_SAMPLE adds the table's entry to the wrapping accumulator, stores the sample, requests a drain when the new accumulator is a
multiple of 4, and changes nothing else (R81). -/
def Obligations.QuadSampleMovesAccumulator : Prop :=
  ∀ (a b : Bool) (s : State),
    let cur : Sample := BitVec.ofBool a ++ BitVec.ofBool b
    let acc : Byte := s.acc + BitVec.ofInt 8 (deltaTable.getD (s.prev ++ cur).toNat 0)
    exec (.quadSample a b) s = .next
      { s with
        acc := acc
        prev := cur
        history := if acc.toNat % 4 = 0 then s.history ++ [.drainRequest] else s.history }

/-- A drain is requested exactly by the samples at the rest phase, both lines high (R82), in every state that meets R23. -/
def Obligations.DrainRequestedExactlyAtRest : Prop :=
  ∀ (a b : Bool) (s : State), EncoderInv s →
    ∃ u, exec (.quadSample a b) s = .next u ∧
      u.history = if a = true ∧ b = true then s.history ++ [.drainRequest] else s.history

/-- After any samples the accumulator is a multiple of 4 exactly when the lines are at rest, whatever was read first (R91). -/
def Obligations.RestPhaseSelfCorrects : Prop :=
  ∀ (samples : List (Bool × Bool)) (s : State), EncoderInv s →
    ∃ u, execAll (samples.map fun v => .quadSample v.1 v.2) s = .next u ∧
      (u.acc.toNat % 4 = 0 ↔ u.prev = 0b11#2)

/-- The properties of rotation (R90(a), (b)): a clockwise cycle from rest adds 4 and requests one drain, on its last sample; a reversed
partial cycle from rest returns and requests one; from one edge past rest it requests none; and a drain then counts no detent. -/
def Obligations.RotationFromRest : Prop :=
  ∀ s : State, EncoderInv s →
    (s.prev = 0b11#2 →
      execAll [.quadSample false true, .quadSample false false, .quadSample true false] s =
        .next { s with acc := s.acc + 3#8, prev := 0b10#2 } ∧
      execAll [.quadSample false true, .quadSample false false, .quadSample true false, .quadSample true true] s =
        .next { s with acc := s.acc + 4#8, history := s.history ++ [.drainRequest] } ∧
      execAll [.quadSample false true, .quadSample false false, .quadSample false true, .quadSample true true] s =
        .next { s with history := s.history ++ [.drainRequest] } ∧
      (s.dph = .idle → s.last = s.acc → ∃ u,
        execAll ([.quadSample false true, .quadSample false false, .quadSample false true, .quadSample true true] ++
          drainStar s) s = .next u ∧
        u.history = s.history ++ [.drainRequest, .drainResult s.btn 0])) ∧
    (s.prev = 0b01#2 →
      execAll [.quadSample false false, .quadSample true false, .quadSample false false, .quadSample false true] s =
        .next s)

/-- BTN_EDGE: a low level counts one press, saturating at 127; a high level changes nothing (R83). -/
def Obligations.ButtonEdgeCountsPress : Prop :=
  ∀ (l : Bool) (s : State),
    exec (.btnEdge l) s = .next
      (if l = false then { s with btn := BitVec.ofNat 8 (min (s.btn.toNat + 1) 127) } else s)

/-- Between resets and drains no press is lost below the cap, whatever else steps in between: the count is that of the qualifying
edges, saturating at 127 (R15, R38). -/
def Obligations.PressesAccumulateUpToCap : Prop :=
  ∀ (ops : List Instr) (s u : State), s.btn.toNat ≤ 127 →
    (∀ i ∈ ops, i ≠ .drainClear ∧ ∀ src, i ≠ .reset src) → execAll ops s = .next u →
    u.btn.toNat = min (s.btn.toNat + presses ops) 127

/-- n qualifying edges always complete and leave min(BTN + n, 127); 130 of them and a drain report 0x7F and leave 0 (R90(c)). -/
def Obligations.PressesSaturateAndAreReported : Prop :=
  ∀ s : State, s.btn.toNat ≤ 127 →
    (∀ n, execAll (List.replicate n (.btnEdge false)) s =
      .next { s with btn := BitVec.ofNat 8 (min (s.btn.toNat + n) 127) }) ∧
    (s.dph = .idle → ∃ u, execAll (List.replicate 130 (.btnEdge false) ++ drainStar s) s = .next u ∧
      u.btn = 0x00#8 ∧ ∃ detents, u.history = s.history ++ [.drainResult 0x7F#8 detents])

/-! ### The drain -/

/-- DRAIN clears the detent counter and enters LOOP from IDLE, changes nothing else, and has no step inside another drain (R85). -/
def Obligations.DrainStarts : Prop :=
  ∀ s : State,
    (s.dph = .idle → exec .drain s = .next { s with ddet := 0x00#8, dph := .loop }) ∧
    (s.dph ≠ .idle → exec .drain s = .refused .drainInProgress)

/-- DRAIN_STEP moves LAST and the detent counter by one detent toward ACC, or ends the loop inside the window; it changes nothing else
and has no step outside LOOP (R86). -/
def Obligations.DrainStepConvertsOneDetent : Prop :=
  ∀ s : State,
    (s.dph = .loop →
      ((s.acc - s.last).toInt < -3 →
        exec .drainStep s = .next { s with last := s.last - 4#8, ddet := s.ddet - 1#8 }) ∧
      (3 < (s.acc - s.last).toInt →
        exec .drainStep s = .next { s with last := s.last + 4#8, ddet := s.ddet + 1#8 }) ∧
      (-3 ≤ (s.acc - s.last).toInt → (s.acc - s.last).toInt ≤ 3 →
        exec .drainStep s = .next { s with dph := .clear })) ∧
    (s.dph ≠ .loop → exec .drainStep s = .refused .drainNotInLoop)

/-- DRAIN_CLEAR reads and clears the count in one step, reports it with bit 7 zero and the signed detent count beside it, ends the
drain, changes nothing else, and has no step elsewhere (R87). -/
def Obligations.DrainClearReportsAndClears : Prop :=
  ∀ s : State,
    (s.dph = .clear → exec .drainClear s = .next
      { s with
        btn := 0x00#8
        dph := .idle
        history := s.history ++ [.drainResult (s.btn &&& 0x7F#8) s.ddet.toInt] }) ∧
    (s.dph ≠ .clear → exec .drainClear s = .refused .drainNotAtClear)

/-- The critical section (R36): a press just before DRAIN_CLEAR is in this report, a press just after it is kept for the next; none is
lost between the read and the clear. -/
def Obligations.PressesAroundClearAreKept : Prop :=
  ∀ s : State, EncoderInv s → s.dph = .clear →
    (∃ u, execAll [.btnEdge false, .drainClear] s = .next u ∧ u.btn = 0x00#8 ∧
      u.history = s.history ++ [.drainResult (BitVec.ofNat 8 (min (s.btn.toNat + 1) 127)) s.ddet.toInt]) ∧
    (∃ u, execAll [.drainClear, .btnEdge false] s = .next u ∧ u.btn = 0x01#8 ∧
      u.history = s.history ++ [.drainResult s.btn s.ddet.toInt])

/-- A complete drain of a still accumulator (R89): the closed form of the detents, where LAST ends, the bounds on what is left, the
reported count, and at most 33 DRAIN_STEPs. -/
def Obligations.CompleteDrainClosedForm : Prop :=
  ∀ s : State, EncoderInv s → s.dph = .idle →
    let d := (s.acc - s.last).toInt
    let n := detentsOf d
    execAll (drainStar s) s = .next
      { s with
        last := s.last + BitVec.ofInt 8 (4 * n)
        ddet := BitVec.ofInt 8 n
        btn := 0x00#8
        history := s.history ++ [.drainResult s.btn n] } ∧
    (-3 ≤ d → d ≤ 3 → n = 0) ∧
    (3 < d → n = (d - 4) / 4 + 1 ∧ 0 ≤ d - 4 * n ∧ d - 4 * n ≤ 3) ∧
    (d < -3 → n = -((-d - 4) / 4 + 1) ∧ -3 ≤ d - 4 * n ∧ d - 4 * n ≤ 0) ∧
    (s.acc.toNat % 4 = 0 → s.last + BitVec.ofInt 8 (4 * n) = s.acc) ∧
    n.natAbs + 1 ≤ 33

/-- A main context that keeps its duty ends every drain, once the lines rest and no reset comes (R86, R114): the loop ends, and
DRAIN_CLEAR is performed. -/
def Obligations.FairMainContextEndsDrain : Prop :=
  ∀ (r : Run) (n : Nat), r.drainFair → (r.state n).dph ≠ .idle →
    (∀ m, n ≤ m → (∀ a b, r.op m ≠ .quadSample a b) ∧ ∀ src, r.op m ≠ .reset src) →
    ∃ m, n ≤ m ∧ r.op m = .drainClear

/-- A scheduler that keeps its duty starts a drain after every sample at rest (R82, R126). -/
def Obligations.FairSchedulerServesRest : Prop :=
  ∀ (r : Run) (n : Nat), r.schedulerFair → EncoderInv (r.state n) → r.op n = .quadSample true true →
    ∃ m, n < m ∧ r.op m = .drain
end

