-- ==== Sys2Proof/Laws/State.lean ====
section
/-!
SUPPORT. One lemma per field per update of State, true by unfolding the update once, so that no later proof unfolds one.
-/

namespace Sys2Proof.Machine

section
variable (s : State)

/-! ### `emit` -/

@[simp] theorem emit_mode (e : Event) :
    (emit e s).mode = s.mode := rfl
@[simp] theorem emit_buf (e : Event) :
    (emit e s).buf = s.buf := rfl
@[simp] theorem emit_len (e : Event) :
    (emit e s).len = s.len := rfl
@[simp] theorem emit_cap (e : Event) :
    (emit e s).cap = s.cap := rfl
@[simp] theorem emit_prev (e : Event) :
    (emit e s).prev = s.prev := rfl
@[simp] theorem emit_acc (e : Event) :
    (emit e s).acc = s.acc := rfl
@[simp] theorem emit_last (e : Event) :
    (emit e s).last = s.last := rfl
@[simp] theorem emit_btn (e : Event) :
    (emit e s).btn = s.btn := rfl
@[simp] theorem emit_dph (e : Event) :
    (emit e s).dph = s.dph := rfl
@[simp] theorem emit_ddet (e : Event) :
    (emit e s).ddet = s.ddet := rfl
@[simp] theorem emit_history (e : Event) :
    (emit e s).history = s.history ++ [e] := rfl
@[simp] theorem emit_inputs (e : Event) :
    (emit e s).inputs = s.inputs := rfl
@[simp] theorem emit_draws (e : Event) :
    (emit e s).draws = s.draws := rfl

/-! ### `writeBuf` -/

@[simp] theorem writeBuf_mode (i : Nat) (v : Byte) :
    (writeBuf i v s).mode = s.mode := rfl
@[simp] theorem writeBuf_buf (i : Nat) (v : Byte) :
    (writeBuf i v s).buf = s.buf.write i v := rfl
@[simp] theorem writeBuf_len (i : Nat) (v : Byte) :
    (writeBuf i v s).len = s.len := rfl
@[simp] theorem writeBuf_cap (i : Nat) (v : Byte) :
    (writeBuf i v s).cap = s.cap := rfl
@[simp] theorem writeBuf_prev (i : Nat) (v : Byte) :
    (writeBuf i v s).prev = s.prev := rfl
@[simp] theorem writeBuf_acc (i : Nat) (v : Byte) :
    (writeBuf i v s).acc = s.acc := rfl
@[simp] theorem writeBuf_last (i : Nat) (v : Byte) :
    (writeBuf i v s).last = s.last := rfl
@[simp] theorem writeBuf_btn (i : Nat) (v : Byte) :
    (writeBuf i v s).btn = s.btn := rfl
@[simp] theorem writeBuf_dph (i : Nat) (v : Byte) :
    (writeBuf i v s).dph = s.dph := rfl
@[simp] theorem writeBuf_ddet (i : Nat) (v : Byte) :
    (writeBuf i v s).ddet = s.ddet := rfl
@[simp] theorem writeBuf_history (i : Nat) (v : Byte) :
    (writeBuf i v s).history = s.history := rfl
@[simp] theorem writeBuf_inputs (i : Nat) (v : Byte) :
    (writeBuf i v s).inputs = s.inputs := rfl
@[simp] theorem writeBuf_draws (i : Nat) (v : Byte) :
    (writeBuf i v s).draws = s.draws := rfl

/-! ### `loadXfer` -/

@[simp] theorem loadXfer_mode (t : Transaction) :
    (loadXfer t s).mode = s.mode := rfl
@[simp] theorem loadXfer_buf (t : Transaction) :
    (loadXfer t s).buf = Memory.writeList [] 0 t.buf := rfl
@[simp] theorem loadXfer_len (t : Transaction) :
    (loadXfer t s).len = t.len := rfl
@[simp] theorem loadXfer_cap (t : Transaction) :
    (loadXfer t s).cap = t.cap := rfl
@[simp] theorem loadXfer_prev (t : Transaction) :
    (loadXfer t s).prev = s.prev := rfl
@[simp] theorem loadXfer_acc (t : Transaction) :
    (loadXfer t s).acc = s.acc := rfl
@[simp] theorem loadXfer_last (t : Transaction) :
    (loadXfer t s).last = s.last := rfl
@[simp] theorem loadXfer_btn (t : Transaction) :
    (loadXfer t s).btn = s.btn := rfl
@[simp] theorem loadXfer_dph (t : Transaction) :
    (loadXfer t s).dph = s.dph := rfl
@[simp] theorem loadXfer_ddet (t : Transaction) :
    (loadXfer t s).ddet = s.ddet := rfl
@[simp] theorem loadXfer_history (t : Transaction) :
    (loadXfer t s).history = s.history := rfl
@[simp] theorem loadXfer_inputs (t : Transaction) :
    (loadXfer t s).inputs = s.inputs := rfl
@[simp] theorem loadXfer_draws (t : Transaction) :
    (loadXfer t s).draws = s.draws := rfl

/-! ### `completeXfer` -/

@[simp] theorem completeXfer_mode (n : Nat) :
    (completeXfer n s).mode = s.mode := rfl
@[simp] theorem completeXfer_buf (n : Nat) :
    (completeXfer n s).buf = s.buf := rfl
@[simp] theorem completeXfer_len (n : Nat) :
    (completeXfer n s).len = n := rfl
@[simp] theorem completeXfer_cap (n : Nat) :
    (completeXfer n s).cap = s.cap := rfl
@[simp] theorem completeXfer_prev (n : Nat) :
    (completeXfer n s).prev = s.prev := rfl
@[simp] theorem completeXfer_acc (n : Nat) :
    (completeXfer n s).acc = s.acc := rfl
@[simp] theorem completeXfer_last (n : Nat) :
    (completeXfer n s).last = s.last := rfl
@[simp] theorem completeXfer_btn (n : Nat) :
    (completeXfer n s).btn = s.btn := rfl
@[simp] theorem completeXfer_dph (n : Nat) :
    (completeXfer n s).dph = s.dph := rfl
@[simp] theorem completeXfer_ddet (n : Nat) :
    (completeXfer n s).ddet = s.ddet := rfl
@[simp] theorem completeXfer_history (n : Nat) :
    (completeXfer n s).history = s.history ++ [.xferDone n] := rfl
@[simp] theorem completeXfer_inputs (n : Nat) :
    (completeXfer n s).inputs = s.inputs := rfl
@[simp] theorem completeXfer_draws (n : Nat) :
    (completeXfer n s).draws = s.draws := rfl

/-! ### `trailer` -/

@[simp] theorem trailer_mode (n : Nat) :
    (trailer n s).mode = s.mode := rfl
@[simp] theorem trailer_buf (n : Nat) :
    (trailer n s).buf = s.buf.write n (crc8 (s.buf.readList 0 n)) := rfl
@[simp] theorem trailer_len (n : Nat) :
    (trailer n s).len = n + 1 := rfl
@[simp] theorem trailer_cap (n : Nat) :
    (trailer n s).cap = s.cap := rfl
@[simp] theorem trailer_prev (n : Nat) :
    (trailer n s).prev = s.prev := rfl
@[simp] theorem trailer_acc (n : Nat) :
    (trailer n s).acc = s.acc := rfl
@[simp] theorem trailer_last (n : Nat) :
    (trailer n s).last = s.last := rfl
@[simp] theorem trailer_btn (n : Nat) :
    (trailer n s).btn = s.btn := rfl
@[simp] theorem trailer_dph (n : Nat) :
    (trailer n s).dph = s.dph := rfl
@[simp] theorem trailer_ddet (n : Nat) :
    (trailer n s).ddet = s.ddet := rfl
@[simp] theorem trailer_history (n : Nat) :
    (trailer n s).history = s.history ++ [.xferDone (n + 1)] := rfl
@[simp] theorem trailer_inputs (n : Nat) :
    (trailer n s).inputs = s.inputs := rfl
@[simp] theorem trailer_draws (n : Nat) :
    (trailer n s).draws = s.draws := rfl

/-! ### `replyWith` -/

@[simp] theorem replyWith_mode (c : Byte) (r : Nat) :
    (replyWith c r s).mode = s.mode := rfl
@[simp] theorem replyWith_buf (c : Byte) (r : Nat) :
    (replyWith c r s).buf = (s.buf.write 0 c).write (r + 1) (crc8 ((s.buf.write 0 c).readList 0 (r + 1))) := rfl
@[simp] theorem replyWith_len (c : Byte) (r : Nat) :
    (replyWith c r s).len = r + 2 := rfl
@[simp] theorem replyWith_cap (c : Byte) (r : Nat) :
    (replyWith c r s).cap = s.cap := rfl
@[simp] theorem replyWith_prev (c : Byte) (r : Nat) :
    (replyWith c r s).prev = s.prev := rfl
@[simp] theorem replyWith_acc (c : Byte) (r : Nat) :
    (replyWith c r s).acc = s.acc := rfl
@[simp] theorem replyWith_last (c : Byte) (r : Nat) :
    (replyWith c r s).last = s.last := rfl
@[simp] theorem replyWith_btn (c : Byte) (r : Nat) :
    (replyWith c r s).btn = s.btn := rfl
@[simp] theorem replyWith_dph (c : Byte) (r : Nat) :
    (replyWith c r s).dph = s.dph := rfl
@[simp] theorem replyWith_ddet (c : Byte) (r : Nat) :
    (replyWith c r s).ddet = s.ddet := rfl
@[simp] theorem replyWith_history (c : Byte) (r : Nat) :
    (replyWith c r s).history = s.history ++ [.xferDone (r + 2)] := rfl
@[simp] theorem replyWith_inputs (c : Byte) (r : Nat) :
    (replyWith c r s).inputs = s.inputs := rfl
@[simp] theorem replyWith_draws (c : Byte) (r : Nat) :
    (replyWith c r s).draws = s.draws := rfl

/-! ### `resetElements` -/

@[simp] theorem resetElements_mode (src : ResetSource) :
    (resetElements src s).mode = .run := rfl
@[simp] theorem resetElements_buf (src : ResetSource) :
    (resetElements src s).buf = s.buf := rfl
@[simp] theorem resetElements_len (src : ResetSource) :
    (resetElements src s).len = s.len := rfl
@[simp] theorem resetElements_cap (src : ResetSource) :
    (resetElements src s).cap = s.cap := rfl
@[simp] theorem resetElements_prev (src : ResetSource) :
    (resetElements src s).prev = Config.prevInit := rfl
@[simp] theorem resetElements_acc (src : ResetSource) :
    (resetElements src s).acc = 0x00#8 := rfl
@[simp] theorem resetElements_last (src : ResetSource) :
    (resetElements src s).last = 0x00#8 := rfl
@[simp] theorem resetElements_btn (src : ResetSource) :
    (resetElements src s).btn = 0x00#8 := rfl
@[simp] theorem resetElements_dph (src : ResetSource) :
    (resetElements src s).dph = .idle := rfl
@[simp] theorem resetElements_ddet (src : ResetSource) :
    (resetElements src s).ddet = 0x00#8 := rfl
@[simp] theorem resetElements_history (src : ResetSource) :
    (resetElements src s).history = s.history ++ [.reset src] := rfl
@[simp] theorem resetElements_inputs (src : ResetSource) :
    (resetElements src s).inputs = s.inputs := rfl
@[simp] theorem resetElements_draws (src : ResetSource) :
    (resetElements src s).draws = s.draws := rfl

/-! ### `callDispatcher` -/

@[simp] theorem callDispatcher_mode (given : Option Answer) :
    (callDispatcher given s).mode = s.mode := by cases given <;> rfl
@[simp] theorem callDispatcher_buf (given : Option Answer) :
    (callDispatcher given s).buf = s.buf.writeList 1 ((answerOf given s).region.take (maxReplyLen s)) := rfl
@[simp] theorem callDispatcher_len (given : Option Answer) :
    (callDispatcher given s).len = s.len := by cases given <;> rfl
@[simp] theorem callDispatcher_cap (given : Option Answer) :
    (callDispatcher given s).cap = s.cap := by cases given <;> rfl
@[simp] theorem callDispatcher_prev (given : Option Answer) :
    (callDispatcher given s).prev = s.prev := by cases given <;> rfl
@[simp] theorem callDispatcher_acc (given : Option Answer) :
    (callDispatcher given s).acc = s.acc := by cases given <;> rfl
@[simp] theorem callDispatcher_last (given : Option Answer) :
    (callDispatcher given s).last = s.last := by cases given <;> rfl
@[simp] theorem callDispatcher_btn (given : Option Answer) :
    (callDispatcher given s).btn = s.btn := by cases given <;> rfl
@[simp] theorem callDispatcher_dph (given : Option Answer) :
    (callDispatcher given s).dph = s.dph := by cases given <;> rfl
@[simp] theorem callDispatcher_ddet (given : Option Answer) :
    (callDispatcher given s).ddet = s.ddet := by cases given <;> rfl
@[simp] theorem callDispatcher_history (given : Option Answer) :
    (callDispatcher given s).history = s.history ++ [.dispatchCall (commandByte s) (payloadLen s) (maxReplyLen s)] ++
      [.dispatchAnswer (answerOf given s).status (answerOf given s).replyLen] := by cases given <;> rfl
@[simp] theorem callDispatcher_inputs (given : Option Answer) :
    (callDispatcher given s).inputs = s.inputs := by cases given <;> rfl
@[simp] theorem callDispatcher_draws (given : Option Answer) :
    (callDispatcher given s).draws = (countDraw given s).draws := rfl

/-! ### `countDraw` -/

@[simp] theorem countDraw_mode (given : Option Answer) : (countDraw given s).mode = s.mode := by cases given <;> rfl
@[simp] theorem countDraw_buf (given : Option Answer) : (countDraw given s).buf = s.buf := by cases given <;> rfl
@[simp] theorem countDraw_len (given : Option Answer) : (countDraw given s).len = s.len := by cases given <;> rfl
@[simp] theorem countDraw_cap (given : Option Answer) : (countDraw given s).cap = s.cap := by cases given <;> rfl
@[simp] theorem countDraw_prev (given : Option Answer) : (countDraw given s).prev = s.prev := by cases given <;> rfl
@[simp] theorem countDraw_acc (given : Option Answer) : (countDraw given s).acc = s.acc := by cases given <;> rfl
@[simp] theorem countDraw_last (given : Option Answer) : (countDraw given s).last = s.last := by cases given <;> rfl
@[simp] theorem countDraw_btn (given : Option Answer) : (countDraw given s).btn = s.btn := by cases given <;> rfl
@[simp] theorem countDraw_dph (given : Option Answer) : (countDraw given s).dph = s.dph := by cases given <;> rfl
@[simp] theorem countDraw_ddet (given : Option Answer) : (countDraw given s).ddet = s.ddet := by cases given <;> rfl
@[simp] theorem countDraw_history (given : Option Answer) : (countDraw given s).history = s.history := by cases given <;> rfl
@[simp] theorem countDraw_inputs (given : Option Answer) : (countDraw given s).inputs = s.inputs := by cases given <;> rfl
@[simp] theorem countDraw_some (a : Answer) : countDraw (some a) s = s := rfl
@[simp] theorem countDraw_none_draws : (countDraw none s).draws = s.draws + 1 := rfl

/-! ### `convertDetent` -/

@[simp] theorem convertDetent_mode : (convertDetent s).mode = s.mode := by
  unfold convertDetent; split <;> [rfl; split <;> rfl]
@[simp] theorem convertDetent_buf : (convertDetent s).buf = s.buf := by
  unfold convertDetent; split <;> [rfl; split <;> rfl]
@[simp] theorem convertDetent_len : (convertDetent s).len = s.len := by
  unfold convertDetent; split <;> [rfl; split <;> rfl]
@[simp] theorem convertDetent_cap : (convertDetent s).cap = s.cap := by
  unfold convertDetent; split <;> [rfl; split <;> rfl]
@[simp] theorem convertDetent_prev : (convertDetent s).prev = s.prev := by
  unfold convertDetent; split <;> [rfl; split <;> rfl]
@[simp] theorem convertDetent_acc : (convertDetent s).acc = s.acc := by
  unfold convertDetent; split <;> [rfl; split <;> rfl]
@[simp] theorem convertDetent_btn : (convertDetent s).btn = s.btn := by
  unfold convertDetent; split <;> [rfl; split <;> rfl]
@[simp] theorem convertDetent_history : (convertDetent s).history = s.history := by
  unfold convertDetent; split <;> [rfl; split <;> rfl]
@[simp] theorem convertDetent_inputs : (convertDetent s).inputs = s.inputs := by
  unfold convertDetent; split <;> [rfl; split <;> rfl]
@[simp] theorem convertDetent_draws : (convertDetent s).draws = s.draws := by
  unfold convertDetent; split <;> [rfl; split <;> rfl]

end

end Sys2Proof.Machine
end

