-- ==== Sys2Proof/Laws/Crc.lean ====
section
/-!
SUPPORT. The laws of the checksum (40_transport.md R60).
-/

namespace Sys2Proof

@[simp] theorem crcShift_zero : crcShift 0#8 = 0#8 := by decide

/-- Feeding the register its own value clears it (R61). -/
@[simp] theorem crcByte_self (c : Byte) : crcByte c c = 0#8 := by
  simp [crcByte]

theorem crc8_nil : crc8 [] = 0#8 := by decide

/-- One more byte at the end is one more step of the register. -/
theorem crc8_append_singleton (d : List Byte) (b : Byte) : crc8 (d ++ [b]) = crcByte (crc8 d) b := by
  simp [crc8, List.foldl_append, Config.crcXorOut]

/-- One of the eight shifts is injective: bit 0 of the result tells which branch was taken. -/
theorem crcShift_injective : Function.Injective crcShift := by
  have h : ∀ i j : Fin 256, crcShift (BitVec.ofFin i) = crcShift (BitVec.ofFin j) → i = j := by
    have hinv : ∃ g : Byte → Byte, ∀ i : Fin 256, g (crcShift (BitVec.ofFin i)) = BitVec.ofFin i :=
      ⟨fun x => if x.getLsbD 0 then ((x ^^^ 0x07#8) >>> 1) ||| 0x80#8 else x >>> 1, by decide +kernel⟩
    obtain ⟨g, hg⟩ := hinv
    intro i j hij
    have := (hg i).symm.trans ((congrArg g hij).trans (hg j))
    exact BitVec.ofFin.inj this
  intro x y hxy
  exact BitVec.eq_of_toFin_eq (h x.toFin y.toFin hxy)

/-- A step of the register is the same function of the register and the byte. -/
theorem crcByte_comm (c b : Byte) : crcByte c b = crcByte b c := by
  simp [crcByte, BitVec.xor_comm]

/-- Different bytes lead to different registers. -/
theorem crcByte_injective (c : Byte) : Function.Injective (crcByte c) := by
  intro x y h
  have hx : c ^^^ x = c ^^^ y := by
    unfold crcByte at h
    exact crcShift_injective (crcShift_injective (crcShift_injective (crcShift_injective
      (crcShift_injective (crcShift_injective (crcShift_injective (crcShift_injective h)))))))
  have := congrArg (fun z => c ^^^ z) hx
  simpa [← BitVec.xor_assoc] using this

end Sys2Proof
end

