-- ==== Sys2Proof/Laws/Decode.lean ====
section
/-!
SUPPORT. The pieces of the round trip: what the decoder makes of a frame of a given path, and of a frame with a given answer.
-/

namespace Sys2Proof

/-- Transaction bounds, spelled out. -/
theorem Transaction.wf_iff (t : Transaction) : t.wf = true ↔ t.cap ≤ 255 ∧ t.len ≤ 255 := by
  simp only [Transaction.wf, Bool.and_eq_true, decide_eq_true_eq, Config.capMax]

/-- Bounded operands pass the decoder's check. -/
theorem checkBus_ok {b : BusInput} (i : Instr) (ht : b.transaction.wf = true)
    (ha : ∀ a, b.answer = some a → regionFits a.region b.transaction = true) : checkBus b i = .ok i := by
  obtain ⟨h1, h2⟩ := (Transaction.wf_iff _).mp ht
  have hb : busProblem b = none := by
    unfold busProblem
    simp only [Config.capMax]
    rw [if_neg (by omega), if_neg (by omega)]
    split
    · rw [if_neg (by simpa [regionFits] using ha _ ‹_›)]
    · rfl
  simp [checkBus, hb]

/-- Only bounded operands pass the decoder's check. -/
theorem checkBus_ok_inv {b : BusInput} {i j : Instr} (h : checkBus b i = .ok j) :
    i = j ∧ b.transaction.wf = true ∧ ∀ a, b.answer = some a → regionFits a.region b.transaction = true := by
  unfold checkBus at h
  split at h
  · cases h
  · rename_i hb
    refine ⟨by simpa using h, ?_⟩
    unfold busProblem at hb
    simp only [Transaction.wf_iff, regionFits]
    simp only [Config.capMax] at hb
    split at hb
    · cases hb
    · split at hb
      · cases hb
      · refine ⟨by omega, fun a ha => ?_⟩
        rw [ha] at hb
        simp only at hb
        split at hb
        · cases hb
        · simpa using Nat.le_of_not_lt ‹_›

end Sys2Proof
end

