-- ==== Sys2Proof/Laws/Encoder.lean ====
section
/-!
SUPPORT. What the encoder engine's operations and RESET can do, one lemma per operation (41_encoder.md R81 to R87), and the arithmetic
of the wrapping counters.
-/

namespace Sys2Proof.Machine

/-- QUAD_SAMPLE always completes (R81, R106). -/
theorem execQuadSample_eq (a b : Bool) (s : State) :
    execQuadSample a b s = .next
      { s with
        acc := quadAcc a b s
        prev := sampleOf a b
        history := if atDetent (quadAcc a b s) then s.history ++ [.drainRequest] else s.history } := by
  unfold execQuadSample
  split <;> simp_all [emit]

/-- BTN_EDGE always completes (R83, R106). -/
theorem execBtnEdge_eq (l : Bool) (s : State) :
    execBtnEdge l s = .next { s with btn := if qualifies l then countPress s.btn else s.btn } := by
  unfold execBtnEdge
  split <;> simp_all

/-- DRAIN answers a next state only from IDLE (R85). -/
theorem execDrain_next {s u : State} (h : execDrain s = .next u) :
    s.dph = .idle ∧ u = { s with ddet := 0x00#8, dph := .loop } := by
  unfold execDrain at h
  split at h
  · exact ⟨‹_›, by simpa using h.symm⟩
  · cases h
  · cases h

/-- DRAIN_STEP answers a next state only from LOOP (R86). -/
theorem execDrainStep_next {s u : State} (h : execDrainStep s = .next u) :
    s.dph = .loop ∧ u = convertDetent s := by
  unfold execDrainStep at h
  split at h
  · exact ⟨‹_›, by simpa using h.symm⟩
  · cases h
  · cases h

/-- DRAIN_CLEAR answers a next state only from CLEAR (R87). -/
theorem execDrainClear_next {s u : State} (h : execDrainClear s = .next u) :
    s.dph = .clear ∧ u = { s with
      btn := 0x00#8, dph := .idle, history := s.history ++ [.drainResult (drainWord s.btn) (s8 s.ddet)] } := by
  unfold execDrainClear at h
  split at h
  · exact ⟨‹_›, by simpa [emit] using h.symm⟩
  · cases h
  · cases h

/-- RESET answers a next state from POWER_ON, or from WATCHDOG while halted (R121). -/
theorem execReset_next {src : ResetSource} {s u : State} (h : execReset src s = .next u) :
    (src = .powerOn ∨ s.mode = .halted) ∧ u = resetElements src s := by
  unfold execReset at h
  split at h
  · exact ⟨.inl rfl, by simpa using h.symm⟩
  · exact ⟨.inr ‹_›, by simpa using h.symm⟩
  · cases h

/-- One iteration of the drain, by where the difference lies (R86). -/
theorem convertDetent_cases (s : State) :
    (diffOf s.acc s.last < -3 ∧ convertDetent s = { s with last := s.last - 4#8, ddet := s.ddet - 1#8 }) ∨
    (3 < diffOf s.acc s.last ∧ convertDetent s = { s with last := s.last + 4#8, ddet := s.ddet + 1#8 }) ∨
    (-3 ≤ diffOf s.acc s.last ∧ diffOf s.acc s.last ≤ 3 ∧ convertDetent s = { s with dph := .clear }) := by
  unfold convertDetent
  simp only [belowWindow, aboveWindow, Config.windowLow, Config.windowHigh, decide_eq_true_eq]
  split
  · exact .inl ⟨‹_›, rfl⟩
  · split
    · exact .inr (.inl ⟨‹_›, rfl⟩)
    · exact .inr (.inr ⟨by omega, by omega, rfl⟩)

/-- The press counter after a press, as a number: it saturates at 127 (R83). -/
theorem countPress_toNat (b : Byte) : (countPress b).toNat = min (b.toNat + 1) 127 := by
  simp only [countPress, Config.btnMax, BitVec.toNat_ofNat]
  omega

/-- Wrapping keeps the residue modulo 4 (R13, R23). -/
theorem u8_toNat_mod_four (n : Int) : ((u8 n).toNat : Int) % 4 = n % 4 := by
  simp only [u8, BitVec.toNat_ofInt]
  omega

end Sys2Proof.Machine
end

