-- ==== Sys2Proof/Laws/Memory.lean ====
section
/-!
SUPPORT. The laws of the transfer buffer: a read after a write, every memory operation keeps the canonical form, and where cells come
from.
-/

namespace Sys2Proof.Machine

/-- The canonical form of a list is that of its tail, with a head below every cell of the tail and not blank. -/
theorem Memory.wf_cons (a : Nat) (v : Byte) (m : Memory) :
    Memory.wf ((a, v) :: m) ↔ (∀ c ∈ m, a < c.1) ∧ v ≠ Memory.blank ∧ Memory.wf m := by
  simp only [Memory.wf, List.pairwise_cons, List.forall_mem_cons]
  tauto

theorem Memory.wf_nil : Memory.wf [] := by simp [Memory.wf]

/-- An index below every cell reads blank. -/
theorem Memory.read_of_lt_all (m : Memory) (a : Nat) (h : ∀ c ∈ m, a < c.1) : m.read a = Memory.blank := by
  induction m with
  | nil => rfl
  | cons c m ih =>
    obtain ⟨b, v⟩ := c
    have hb : a < b := h (b, v) (by simp)
    rw [Memory.read, if_neg (by omega), ih (fun d hd => h d (by simp [hd]))]

theorem Memory.mem_put {a : Nat} {v : Byte} {m : Memory} {c : Host.Cell} (h : c ∈ Memory.put a v m) :
    c.1 = a ∨ c ∈ m := by
  unfold Memory.put at h
  split at h
  · exact .inr h
  · rcases List.mem_cons.mp h with rfl | h
    · exact .inl rfl
    · exact .inr h

/-- A written memory holds old cells and cells at the written index. -/
theorem Memory.mem_write {m : Memory} {a : Nat} {v : Byte} {c : Host.Cell} (h : c ∈ m.write a v) :
    c.1 = a ∨ c ∈ m := by
  induction m with
  | nil => exact Memory.mem_put h
  | cons d m ih =>
    obtain ⟨b, w⟩ := d
    simp only [Memory.write] at h
    split at h
    · exact Memory.mem_put h
    · split at h
      · exact (Memory.mem_put h).imp_right (by simp +contextual)
      · rcases List.mem_cons.mp h with rfl | h
        · exact .inr (by simp)
        · exact (ih h).imp_right (by simp +contextual)

theorem Memory.wf_put {a : Nat} {v : Byte} {m : Memory} (h : m.wf) (ha : ∀ c ∈ m, a < c.1) :
    (Memory.put a v m).wf := by
  unfold Memory.put
  split
  · exact h
  · exact (Memory.wf_cons a v m).mpr ⟨ha, ‹_›, h⟩

/-- Writing a byte keeps the canonical form. -/
theorem Memory.wf_write {m : Memory} (h : m.wf) (a : Nat) (v : Byte) : (m.write a v).wf := by
  induction m with
  | nil => exact Memory.wf_put h (by simp)
  | cons d m ih =>
    obtain ⟨b, w⟩ := d
    obtain ⟨hb, hw, hm⟩ := (Memory.wf_cons b w m).mp h
    simp only [Memory.write]
    split
    · refine Memory.wf_put h (fun c hc => ?_)
      rcases List.mem_cons.mp hc with rfl | hc
      · assumption
      · have := hb c hc; omega
    · split
      · subst a; exact Memory.wf_put hm hb
      · refine (Memory.wf_cons b w _).mpr ⟨fun c hc => ?_, hw, ih hm⟩
        rcases Memory.mem_write hc with h1 | h1
        · omega
        · exact hb c h1

/-- Writing consecutive bytes keeps the canonical form. -/
theorem Memory.wf_writeList (vs : List Byte) {m : Memory} (h : m.wf) (a : Nat) : (m.writeList a vs).wf := by
  induction vs generalizing m a with
  | nil => exact h
  | cons v vs ih => exact ih (Memory.wf_write h a v) (a + 1)

theorem Memory.read_put (a : Nat) (v : Byte) (m : Memory) (i : Nat) (h : m.read a = Memory.blank) :
    (Memory.put a v m).read i = if i = a then v else m.read i := by
  unfold Memory.put
  split
  · split
    · simp_all
    · rfl
  · rfl

/-- A read after a write: the byte written at its index, the old byte elsewhere. -/
theorem Memory.read_write {m : Memory} (h : m.wf) (a : Nat) (v : Byte) (i : Nat) :
    (m.write a v).read i = if i = a then v else m.read i := by
  induction m with
  | nil => exact Memory.read_put a v [] i rfl
  | cons d m ih =>
    obtain ⟨b, w⟩ := d
    obtain ⟨hb, -, hm⟩ := (Memory.wf_cons b w m).mp h
    simp only [Memory.write]
    split
    · refine Memory.read_put a v _ i (Memory.read_of_lt_all _ a (fun c hc => ?_))
      rcases List.mem_cons.mp hc with rfl | hc
      · assumption
      · have := hb c hc; omega
    · split
      · subst a
        rw [Memory.read_put b v m i (Memory.read_of_lt_all m b hb), Memory.read]
        split <;> rfl
      · rw [Memory.read, Memory.read, ih hm]
        split
        · rw [if_neg (by omega)]
        · rfl

/-- A read after consecutive writes. -/
theorem Memory.read_writeList (vs : List Byte) {m : Memory} (h : m.wf) (a i : Nat) :
    (m.writeList a vs).read i = if a ≤ i ∧ i < a + vs.length then vs.getD (i - a) Memory.blank else m.read i := by
  induction vs generalizing m a with
  | nil => simp only [Memory.writeList, List.length_nil]; rw [if_neg (by omega)]
  | cons v vs ih =>
    rw [Memory.writeList, ih (Memory.wf_write h a v), Memory.read_write h]
    simp only [List.length_cons]
    by_cases h1 : i = a
    · subst i; simp
    · by_cases h2 : a + 1 ≤ i ∧ i < a + 1 + vs.length
      · rw [if_pos h2, if_pos (by omega), show i - a = (i - (a + 1)) + 1 by omega, List.getD_cons_succ]
      · rw [if_neg h2, if_neg h1, if_neg (by omega)]

/-- Consecutive writes add no cell outside their range. -/
theorem Memory.mem_writeList (vs : List Byte) {m : Memory} {a : Nat} {c : Host.Cell} (h : c ∈ m.writeList a vs) :
    (a ≤ c.1 ∧ c.1 < a + vs.length) ∨ c ∈ m := by
  induction vs generalizing m a with
  | nil => exact .inr h
  | cons v vs ih =>
    simp only [List.length_cons]
    rcases ih h with h1 | h1
    · exact .inl (by omega)
    · rcases Memory.mem_write h1 with h2 | h2
      · exact .inl (by omega)
      · exact .inr h2

@[simp] theorem Memory.length_readList (m : Memory) (a n : Nat) : (m.readList a n).length = n := by
  induction n generalizing a with
  | zero => rfl
  | succ n ih => simp [Memory.readList, ih]

/-- The `i`-th of `n` consecutive bytes. -/
theorem Memory.getElem_readList (m : Memory) (a n i : Nat) (h : i < (m.readList a n).length) :
    (m.readList a n)[i] = m.read (a + i) := by
  induction n generalizing a i with
  | zero => simp at h
  | succ n ih =>
    cases i with
    | zero => rfl
    | succ i =>
      simp only [Memory.readList, List.getElem_cons_succ]
      rw [ih]
      congr 1
      omega

/-- Reads see only the bytes in their range. -/
theorem Memory.readList_congr {m m' : Memory} {a n : Nat} (h : ∀ i, a ≤ i → i < a + n → m.read i = m'.read i) :
    m.readList a n = m'.readList a n := by
  induction n generalizing a with
  | zero => rfl
  | succ n ih =>
    simp only [Memory.readList]
    rw [h a (by omega) (by omega), ih (fun i h1 h2 => h i (by omega) (by omega))]

/-- One more byte at the end. -/
theorem Memory.readList_succ (m : Memory) (a n : Nat) :
    m.readList a (n + 1) = m.readList a n ++ [m.read (a + n)] := by
  induction n generalizing a with
  | zero => rfl
  | succ n ih =>
    rw [Memory.readList, ih, Memory.readList, List.cons_append]
    congr 4
    omega

/-- A byte below the capacity. -/
theorem State.byteAt_of_lt {s : State} {i : Nat} (h : i < s.cap) : s.byteAt i = some (s.buf.read i) := if_pos h

/-- No byte at or above the capacity (R40). -/
theorem State.byteAt_of_le {s : State} {i : Nat} (h : s.cap ≤ i) : s.byteAt i = none := if_neg (Nat.not_lt.mpr h)

/-- The loaded buffer holds the driver's bytes. -/
theorem loadXfer_read (t : Transaction) (s : State) (i : Nat) :
    (loadXfer t s).buf.read i = t.buf.getD i Memory.blank := by
  rw [loadXfer_buf, Memory.read_writeList t.buf Memory.wf_nil]
  split
  · simp
  · rw [List.getD_eq_default _ _ (by omega)]; rfl

/-- The loaded buffer is canonical. -/
theorem loadXfer_wf (t : Transaction) (s : State) : (loadXfer t s).buf.wf :=
  Memory.wf_writeList t.buf Memory.wf_nil 0

/-- The loaded buffer has no cell at or above the capacity. -/
theorem loadXfer_bounded (t : Transaction) (s : State) : ∀ c ∈ (loadXfer t s).buf, c.1 < t.cap := by
  intro c hc
  rcases Memory.mem_writeList t.buf hc with h | h
  · have := h.2; simpa [Transaction.cap] using this
  · simp at h

/-- The reset state's buffer is canonical. -/
theorem reset_buf_wf : State.reset.buf.wf := Memory.wf_nil

end Sys2Proof.Machine
end

