-- ==== Sys2Proof/Laws/PerInstr.lean ====
section
/-!
SUPPORT. Statements made per instruction. EncodingInBounds: the encoding of a well-formed instruction carries only bus operands the
decoder's bounds admit (30_encoding.md R51, 40_transport.md R76).
-/

namespace Sys2Proof

/-- The bus operands of a port word. -/
def PortWord.busInput : PortWord → Option BusInput
  | .op _ bus => bus
  | .frame bus => some bus

/-- Bus operands within the decoder's bounds. -/
def BusInput.inBounds (b : BusInput) : Prop := busProblem b = none

theorem BusInput.inBounds_of_wf {b : BusInput} (ht : b.transaction.wf = true)
    (ha : ∀ a, b.answer = some a → regionFits a.region b.transaction = true) : b.inBounds := by
  have h := checkBus_ok (b := b) .drain ht ha
  unfold checkBus at h
  split at h
  · cases h
  · assumption

end Sys2Proof

namespace Sys2Proof.Laws.EncodingInBounds

/-- The encoding of a well-formed instruction carries only bus operands within the decoder's bounds. -/
def Statement (i : Instr) : Prop :=
  i.wf = true → ∀ b, (encode i).busInput = some b → b.inBounds

/-- A frame without an answer. -/
theorem of_path (p : Path) (t : Transaction) (h : pathWf p t = true) (b : BusInput)
    (hb : some (BusInput.mk t none) = some b) : b.inBounds := by
  cases hb
  exact BusInput.inBounds_of_wf (by simp_all [pathWf]) (by simp)

/-- A frame with an answer. -/
theorem of_status (c : Byte) (t : Transaction) (r : Nat) (region : List Byte) (h : statusWf c t region = true)
    (b : BusInput) (hb : some (BusInput.mk t (some ⟨c, r, region⟩)) = some b) : b.inBounds := by
  cases hb
  refine BusInput.inBounds_of_wf (by simp_all [statusWf]) (fun a ha => ?_)
  cases ha
  simp_all [statusWf]

theorem bcastReset (t : Transaction) : Statement (.bcastReset t) := of_path .bcastReset t
theorem bcastResetAddress (t : Transaction) : Statement (.bcastResetAddress t) := of_path .bcastResetAddress t
theorem bcastNop (t : Transaction) : Statement (.bcastNop t) := of_path .bcastNop t
theorem uNocap (t : Transaction) : Statement (.uNocap t) := of_path .uNocap t
theorem uShort (t : Transaction) : Statement (.uShort t) := of_path .uShort t
theorem uBadcrc (t : Transaction) : Statement (.uBadcrc t) := of_path .uBadcrc t
theorem unicastRequest (t : Transaction) : Statement (.unicastRequest t) := of_path .uDispatch t
theorem commandOk (t : Transaction) (r : Nat) (region : List Byte) : Statement (.commandOk t r region) :=
  of_status 0x00#8 t r region
theorem commandFailed (t : Transaction) (r : Nat) (region : List Byte) : Statement (.commandFailed t r region) :=
  of_status 0x01#8 t r region
theorem commandNotSupported (t : Transaction) (r : Nat) (region : List Byte) :
    Statement (.commandNotSupported t r region) :=
  of_status 0x02#8 t r region
theorem invalidTransfer (t : Transaction) (r : Nat) (region : List Byte) : Statement (.invalidTransfer t r region) :=
  of_status 0x03#8 t r region
theorem invalidCrc (t : Transaction) (r : Nat) (region : List Byte) : Statement (.invalidCrc t r region) :=
  of_status 0x04#8 t r region
theorem invalidArguments (t : Transaction) (r : Nat) (region : List Byte) : Statement (.invalidArguments t r region) :=
  of_status 0x05#8 t r region
theorem noReply (t : Transaction) (r : Nat) (region : List Byte) : Statement (.noReply t r region) :=
  of_status 0xFF#8 t r region

theorem xfer (t : Transaction) (answer : Option Answer) : Statement (.xfer t answer) := by
  intro h b hb
  cases hb
  refine BusInput.inBounds_of_wf ?_ (fun a ha => ?_)
  · cases answer <;> simp_all [Instr.wf]
  · cases ha
    simp_all [Instr.wf]

theorem quadSample (a b : Bool) : Statement (.quadSample a b) := by intro _ _ h; cases h
theorem btnEdge (level : Bool) : Statement (.btnEdge level) := by intro _ _ h; cases h
theorem drain : Statement .drain := by intro _ _ h; cases h
theorem drainStep : Statement .drainStep := by intro _ _ h; cases h
theorem drainClear : Statement .drainClear := by intro _ _ h; cases h
theorem reset (src : ResetSource) : Statement (.reset src) := by intro _ _ h; cases src <;> cases h
theorem reserved111 : Statement .reserved111 := by intro _ _ h; cases h

end Sys2Proof.Laws.EncodingInBounds
end

