-- ==== Sys2Proof/Laws/Transport.lean ====
section
/-!
SUPPORT. What the transport engine's operations can do, one lemma per shared operation (40_transport.md R62 to R73).
-/

namespace Sys2Proof.Machine

/-- An XFER that answers a next state ran in RUN. -/
theorem whenRunning_next {s u : State} {k : Result} (h : whenRunning s k = .next u) :
    s.mode = .run ∧ k = .next u := by
  unfold whenRunning at h
  split at h
  · exact ⟨‹_›, h⟩
  · cases h

@[simp] theorem whenRunning_run {s : State} {k : Result} (h : s.mode = .run) : whenRunning s k = k := by
  simp [whenRunning, h]

@[simp] theorem whenRunning_halted {s : State} {k : Result} (h : s.mode = .halted) :
    whenRunning s k = .refused .xferWhileHalted := by
  simp [whenRunning, h]

/-- A frame row that answers a next state ran its own path on the loaded state. -/
theorem onPath_next {p : Path} {t : Transaction} {s u : State} {k : State → Result} (h : onPath p t s k = .next u) :
    s.mode = .run ∧ pathOf t = some p ∧ k (loadXfer t s) = .next u := by
  obtain ⟨hm, h⟩ := whenRunning_next h
  split at h
  · exact ⟨hm, ‹_›, h⟩
  · cases h

/-- A frame row on its own path, in RUN. -/
theorem onPath_eq {p : Path} {t : Transaction} {s : State} (k : State → Result) (hm : s.mode = .run)
    (hp : pathOf t = some p) : onPath p t s k = k (loadXfer t s) := by
  simp [onPath, hm, hp]

/-- What can follow the dispatcher's answer, when the XFER completes: no reply, or the dispatcher's. -/
theorem afterDispatch_next {c : Byte} {r : Nat} {s u : State} (h : afterDispatch c r s = .next u) :
    (c = 0xFF#8 ∧ u = completeXfer 0 s) ∨
    (c ≠ 0xFF#8 ∧ statusDefined c = true ∧ r ≤ maxReplyLen s ∧ u = replyWith c r s) := by
  unfold afterDispatch at h
  split at h
  · exact .inl ⟨‹_›, by simpa using h.symm⟩
  · split at h
    · cases h
    · split at h
      · cases h
      · exact .inr ⟨‹_›, by simpa using ‹¬statusDefined c = false›, by omega, by simpa using h.symm⟩

/-- What an XFER that completes or halts did: one path, on the loaded state. -/
theorem runPath_next {t : Transaction} {given : Option Answer} {s u : State} (h : runPath t given s = .next u) :
    (pathOf t = some .bcastReset ∧ u = { emit .watchdogArm (loadXfer t s) with mode := .halted }) ∨
    (pathOf t = some .bcastResetAddress ∧ u = completeXfer 0 (emit .addressResetRequest (loadXfer t s))) ∨
    (pathOf t = some .bcastNop ∧ u = completeXfer 0 (loadXfer t s)) ∨
    (pathOf t = some .uNocap ∧ u = completeXfer 0 (loadXfer t s)) ∨
    (pathOf t = some .uShort ∧ u = replyWith 0x03#8 0 (loadXfer t s)) ∨
    (pathOf t = some .uBadcrc ∧ u = replyWith 0x04#8 0 (loadXfer t s)) ∨
    (pathOf t = some .uDispatch ∧ pathUDispatch given (loadXfer t s) = .next u) := by
  unfold runPath at h
  split at h
  · cases h
  all_goals simp_all [pathBcastReset, pathBcastResetAddress, pathBcastNop, pathUNocap, pathUShort, pathUBadcrc]

/-- A status row that answers a next state ran the transaction with that status as the dispatcher's answer. -/
theorem xferEndingWith_next {c : Byte} {t : Transaction} {r : Nat} {region : List Byte} {s u : State}
    (h : xferEndingWith c t r region s = .next u) :
    s.mode = .run ∧ endsWithStatus c t = true ∧ runPath t (some ⟨c, r, region⟩) s = .next u := by
  obtain ⟨hm, h⟩ := whenRunning_next h
  split at h
  · exact ⟨hm, ‹_›, h⟩
  · cases h

/-- A frame row's path is what XFER runs. -/
theorem onPath_runPath {p : Path} {t : Transaction} {s u : State} {k : State → Result}
    (hk : pathOf t = some p → runPath t none s = k (loadXfer t s)) (h : onPath p t s k = .next u) :
    s.mode = .run ∧ runPath t none s = .next u := by
  obtain ⟨hm, hp, h⟩ := onPath_next h
  exact ⟨hm, (hk hp).trans h⟩

/-- Every transport instruction that answers a next state is an XFER, in RUN, of the transaction it carries. -/
theorem exec_transport_next {i : Instr} {s u : State} (hi : i.isTransport = true) (h : exec i s = .next u) :
    s.mode = .run ∧ ∃ b, i.busInput = some b ∧ runPath b.transaction b.answer s = .next u := by
  cases i with
  | bcastReset t => exact (onPath_runPath (fun hp => by simp [runPath, hp]) h).imp_right fun h => ⟨_, rfl, h⟩
  | bcastResetAddress t => exact (onPath_runPath (fun hp => by simp [runPath, hp]) h).imp_right fun h => ⟨_, rfl, h⟩
  | bcastNop t => exact (onPath_runPath (fun hp => by simp [runPath, hp]) h).imp_right fun h => ⟨_, rfl, h⟩
  | uNocap t => exact (onPath_runPath (fun hp => by simp [runPath, hp]) h).imp_right fun h => ⟨_, rfl, h⟩
  | uShort t => exact (onPath_runPath (fun hp => by simp [runPath, hp]) h).imp_right fun h => ⟨_, rfl, h⟩
  | uBadcrc t => exact (onPath_runPath (fun hp => by simp [runPath, hp]) h).imp_right fun h => ⟨_, rfl, h⟩
  | unicastRequest t => exact (onPath_runPath (fun hp => by simp [runPath, hp]) h).imp_right fun h => ⟨_, rfl, h⟩
  | commandOk t r region => exact ⟨(xferEndingWith_next h).1, _, rfl, (xferEndingWith_next h).2.2⟩
  | commandFailed t r region => exact ⟨(xferEndingWith_next h).1, _, rfl, (xferEndingWith_next h).2.2⟩
  | commandNotSupported t r region => exact ⟨(xferEndingWith_next h).1, _, rfl, (xferEndingWith_next h).2.2⟩
  | invalidTransfer t r region => exact ⟨(xferEndingWith_next h).1, _, rfl, (xferEndingWith_next h).2.2⟩
  | invalidCrc t r region => exact ⟨(xferEndingWith_next h).1, _, rfl, (xferEndingWith_next h).2.2⟩
  | invalidArguments t r region => exact ⟨(xferEndingWith_next h).1, _, rfl, (xferEndingWith_next h).2.2⟩
  | noReply t r region => exact ⟨(xferEndingWith_next h).1, _, rfl, (xferEndingWith_next h).2.2⟩
  | xfer t a => exact ⟨(whenRunning_next h).1, _, rfl, (whenRunning_next h).2⟩
  | quadSample => cases hi
  | btnEdge => cases hi
  | drain => cases hi
  | drainStep => cases hi
  | drainClear => cases hi
  | reset => cases hi
  | reserved111 => cases hi

/-- The bytes of a reply: status, payload in place, checksum (R40, R73). -/
theorem replyWith_wire (c : Byte) (r : Nat) {s : State} (h : s.buf.wf) :
    (replyWith c r s).wire =
      (c :: s.buf.readList 1 r) ++ [crc8 (c :: s.buf.readList 1 r)] := by
  have hlist : (s.buf.write 0 c).readList 0 (r + 1) = c :: s.buf.readList 1 r := by
    rw [Memory.readList, Memory.read_write h, if_pos rfl]
    congr 1
    exact Memory.readList_congr fun i h1 _ => by rw [Memory.read_write h, if_neg (by omega)]
  rw [State.wire, replyWith_len, replyWith_buf, Memory.readList_succ, hlist]
  congr 1
  · rw [← hlist]
    exact Memory.readList_congr fun i _ h2 => by
      rw [Memory.read_write (Memory.wf_write h 0 c), if_neg (by omega)]
  · rw [Memory.read_write (Memory.wf_write h 0 c), if_pos (by omega)]

/-- A reply read at an index (R68, R69, R72, R73, R74). -/
theorem replyWith_read (c : Byte) (r : Nat) {s : State} (h : s.buf.wf) (i : Nat) :
    (replyWith c r s).buf.read i =
      if i = r + 1 then crc8 (c :: s.buf.readList 1 r) else if i = 0 then c else s.buf.read i := by
  have hlist : (s.buf.write 0 c).readList 0 (r + 1) = c :: s.buf.readList 1 r := by
    rw [Memory.readList, Memory.read_write h, if_pos rfl]
    congr 1
    exact Memory.readList_congr fun i h1 _ => by rw [Memory.read_write h, if_neg (by omega)]
  rw [replyWith_buf, hlist, Memory.read_write (Memory.wf_write h 0 c), Memory.read_write h]

/-- The checksum of any reply verifies (R61, R73). -/
theorem replyWith_crc (c : Byte) (r : Nat) {s : State} (h : s.buf.wf) : crc8 (replyWith c r s).wire = 0#8 := by
  rw [replyWith_wire c r h, crc8_append_singleton, crcByte_self]

end Sys2Proof.Machine
end

