-- ==== Sys2Proof/Tests/Slice0.lean ====
section
/-!
SUPPORT. The model's own tests. Expected results are the spec's: the patterns of 30_encoding.md R51, the codes of R44 and R45, and the
vectors of 95_test_vectors.md, named in each comment. Then a witness for every statement that has hypotheses.
-/

set_option Elab.async false

namespace Sys2Proof.Tests

open Sys2Proof Sys2Proof.Machine

/-! ### Helpers -/

/-- The next state, if there is one. -/
def nextOf : Result → Option State
  | .next s => some s
  | _ => none

/-- The fault, if there is one. -/
def faultOf : Result → Option Fault
  | .fault f => some f
  | _ => none

/-- The refusal, if there is one. -/
def refusalIn : Result → Option Refusal
  | .refused r => some r
  | _ => none

/-- The reset state with an empty history, so that a test sees only its own events. -/
def start : State := { State.reset with history := [] }

/-- The same, halted. -/
def halted : State := { start with mode := .halted }

/-- A transaction with `cap` bytes, the frame first and zeros after it (R53). -/
def bus (addr cap : Nat) (frame : List Byte) : Transaction :=
  ⟨addr, frame ++ List.replicate (cap - frame.length) 0x00#8, frame.length⟩

/-- A verified request: the frame of T-U4. -/
def request : Transaction := bus 16 8 [0x01#8, 0x07#8]

/-- The encoder at a given PREV, ACC and LAST. -/
def encoderAt (prev : Sample) (acc last : Byte) (dph : DrainPhase) : State :=
  { start with prev := prev, acc := acc, last := last, dph := dph }

/-! ### WellFormed: an ill-formed term for each check -/

/-- A capacity above 255 (R51). -/
theorem test_wf_refuses_cap : (Instr.xfer ⟨1, List.replicate 256 0x00#8, 0⟩ none).wf = false := by decide +kernel

/-- A length above 255 (R51). -/
theorem test_wf_refuses_len : (Instr.xfer ⟨1, [], 256⟩ none).wf = false := by decide

/-- A region longer than `cap - 2` (R76). -/
theorem test_wf_refuses_region :
    (Instr.xfer (bus 16 2 [0x01#8, 0x07#8]) (some ⟨0x00#8, 0, [0x00#8]⟩)).wf = false ∧
    (Instr.commandOk (bus 16 2 [0x01#8, 0x07#8]) 0 [0x00#8]).wf = false := by decide +kernel

/-- A frame row on a transaction of another path (R62). -/
theorem test_wf_refuses_other_path :
    (Instr.bcastReset (bus 0 1 [0x04#8])).wf = false ∧ (Instr.uShort (bus 16 8 [0x01#8, 0x07#8])).wf = false := by
  decide +kernel

/-- A status row on a transaction that cannot end with it (R44). -/
theorem test_wf_refuses_other_status :
    (Instr.commandOk (bus 16 8 [0x7E#8]) 0 []).wf = false ∧ (Instr.invalidTransfer (bus 0 8 [0x06#8]) 0 []).wf = false := by
  decide +kernel

/-- The reserved selector (R51). -/
theorem test_wf_refuses_reserved : Instr.reserved111.wf = false := by decide

/-! ### Decoding, by words written out from the spec -/

/-- Broadcast frames: 0x06, 0x04, any other byte, and the empty frame (R45, T-B1 to T-B3). -/
theorem test_decode_broadcast :
    decode (.frame ⟨bus 0 8 [0x06#8], none⟩) = .ok (.bcastReset (bus 0 8 [0x06#8])) ∧
    decode (.frame ⟨bus 0 8 [0x04#8, 0x55#8], none⟩) = .ok (.bcastResetAddress (bus 0 8 [0x04#8, 0x55#8])) ∧
    decode (.frame ⟨bus 0 8 [0x99#8], none⟩) = .ok (.bcastNop (bus 0 8 [0x99#8])) ∧
    decode (.frame ⟨bus 0 0 [], none⟩) = .ok (.bcastNop (bus 0 0 [])) := by decide +kernel

/-- Unicast frames, by capacity, length and checksum (R62, T-U1 to T-U4). -/
theorem test_decode_unicast :
    decode (.frame ⟨bus 16 1 [0x01#8], none⟩) = .ok (.uNocap (bus 16 1 [0x01#8])) ∧
    decode (.frame ⟨bus 16 8 [0x7E#8], none⟩) = .ok (.uShort (bus 16 8 [0x7E#8])) ∧
    decode (.frame ⟨bus 16 8 [0x01#8, 0x00#8], none⟩) = .ok (.uBadcrc (bus 16 8 [0x01#8, 0x00#8])) ∧
    decode (.frame ⟨request, none⟩) = .ok (.unicastRequest request) := by decide +kernel

/-- The seven status codes (R44). -/
theorem test_decode_status :
    decode (.frame ⟨request, some ⟨0x00#8, 1, [0x12#8]⟩⟩) = .ok (.commandOk request 1 [0x12#8]) ∧
    decode (.frame ⟨request, some ⟨0x01#8, 0, []⟩⟩) = .ok (.commandFailed request 0 []) ∧
    decode (.frame ⟨request, some ⟨0x02#8, 0, []⟩⟩) = .ok (.commandNotSupported request 0 []) ∧
    decode (.frame ⟨request, some ⟨0x03#8, 0, []⟩⟩) = .ok (.invalidTransfer request 0 []) ∧
    decode (.frame ⟨request, some ⟨0x04#8, 0, []⟩⟩) = .ok (.invalidCrc request 0 []) ∧
    decode (.frame ⟨request, some ⟨0x05#8, 0, []⟩⟩) = .ok (.invalidArguments request 0 []) ∧
    decode (.frame ⟨request, some ⟨0xFF#8, 200, []⟩⟩) = .ok (.noReply request 200 []) := by decide +kernel

/-- A status outside the enumeration is no row: the transaction is the port operation, which faults (R47(a)). -/
theorem test_decode_undefined_status :
    decode (.frame ⟨request, some ⟨0x07#8, 0, []⟩⟩) = .ok (.xfer request (some ⟨0x07#8, 0, []⟩)) := by decide +kernel

/-- The port operations, bit for bit as R51 and the programs P2 and P3 write them. -/
theorem test_decode_port_ops :
    decode (.op [false, false, false] (some ⟨request, none⟩)) = .ok (.xfer request none) ∧
    decode (.op [false, false, true, false, true] none) = .ok (.quadSample false true) ∧
    decode (.op [false, false, true, true, false] none) = .ok (.quadSample true false) ∧
    decode (.op [false, true, false, false] none) = .ok (.btnEdge false) ∧
    decode (.op [false, true, true] none) = .ok .drain ∧
    decode (.op [true, false, false] none) = .ok .drainStep ∧
    decode (.op [true, false, true] none) = .ok .drainClear ∧
    decode (.op [true, true, false, false] none) = .ok (.reset .powerOn) ∧
    decode (.op [true, true, false, true] none) = .ok (.reset .watchdog) := by decide +kernel

/-- Refusals by name (R51, I8). -/
theorem test_decode_refuses :
    decode (.op [true, true, true] none) = .error .reservedSelector ∧
    decode (.op [false, false, true, true] none) = .error .noSuchPattern ∧
    decode (.op [false, false, false] none) = .error .xferOperandsMissing ∧
    decode (.op [false, true, true] (some ⟨request, none⟩)) = .error .strayBusOperands ∧
    decode (.frame ⟨⟨0, List.replicate 256 0x00#8, 0⟩, none⟩) = .error .capAboveMax ∧
    decode (.frame ⟨⟨0, [], 256⟩, none⟩) = .error .lenAboveMax ∧
    decode (.frame ⟨bus 16 2 [0x01#8, 0x07#8], some ⟨0x00#8, 0, [0x12#8]⟩⟩) = .error .regionTooLong := by decide +kernel

/-- The table's numbered words, and the first step from reset on each (opcode_table.json). -/
theorem test_table_words :
    decodeTableWord 8 0x06 = some (.bcastReset ⟨0, [0x06#8], 1⟩) ∧
    decodeTableWord 8 0x04 = some (.bcastResetAddress ⟨0, [0x04#8], 1⟩) ∧
    decodeTableWord 8 0x00 = some (.commandOk zeroRequest 0 []) ∧
    decodeTableWord 8 0xFF = some (.noReply zeroRequest 0 []) ∧
    (nextOf (step (State.reset.withFetchWord 8 0x06))).map State.mode = some .halted ∧
    (nextOf (step (State.reset.withFetchWord 8 0x02))).map State.wire = some [0x02#8, 0x0E#8] := by decide +kernel

/-! ### One step of each instruction -/

/-- T-B1: WatchdogArm, HALTED, no XferDone. -/
theorem test_bcastReset :
    (nextOf (exec (.bcastReset (bus 0 3 [0x06#8, 0x11#8, 0x22#8])) start)).map (fun u => (u.mode, u.history)) =
      some (.halted, [.watchdogArm]) := by decide +kernel

/-- T-B5: only byte 0 counts. -/
theorem test_bcastResetAddress :
    (nextOf (exec (.xfer (bus 0 2 [0x04#8, 0x06#8]) none) start)).map (fun u => (u.mode, u.len, u.history)) =
      some (.run, 0, [.addressResetRequest, .xferDone 0]) := by decide +kernel

/-- T-B4, T-B6: empty with no capacity, and another first byte. -/
theorem test_bcastNop :
    (nextOf (exec (.bcastNop (bus 0 0 [])) start)).map State.history = some [.xferDone 0] ∧
    (nextOf (exec (.xfer (bus 0 2 [0x07#8, 0x06#8]) none) start)).map State.history = some [.xferDone 0] := by
  decide +kernel

/-- T-U1: the capacity floor precedes the length check. -/
theorem test_uNocap :
    (nextOf (exec (.uNocap (bus 16 1 [])) start)).map (fun u => (u.len, u.history)) = some (0, [.xferDone 0]) := by
  decide +kernel

/-- T-U2. -/
theorem test_uShort :
    (nextOf (exec (.uShort (bus 16 8 [0x7E#8])) start)).map (fun u => (u.wire, u.history)) =
      some ([0x03#8, 0x09#8], [.xferDone 2]) := by decide +kernel

/-- T-U3: the bytes from index 2 on keep their request values. -/
theorem test_uBadcrc :
    (nextOf (exec (.uBadcrc (bus 16 8 [0x01#8, 0x13#8, 0x34#8, 0x9A#8])) start)).map
      (fun u => (u.wire, u.byteAt 2, u.byteAt 3)) = some ([0x04#8, 0x1C#8], some 0x34#8, some 0x9A#8) := by
  decide +kernel

/-- T-U4: reply with payload. -/
theorem test_xfer_reply :
    (nextOf (exec (.xfer request (some ⟨0x00#8, 2, [0x12#8, 0x34#8]⟩)) start)).map (fun u => (u.wire, u.history)) =
      some ([0x00#8, 0x12#8, 0x34#8, 0xF1#8],
        [.dispatchCall 0x01#8 0 6, .dispatchAnswer 0x00#8 2, .xferDone 4]) := by decide +kernel

/-- T-U10: the reply fills the buffer. -/
theorem test_commandOk :
    (nextOf (exec (.commandOk (bus 16 4 [0x03#8, 0x55#8, 0xAA#8, 0xAF#8]) 2 []) start)).map State.wire =
      some [0x00#8, 0x55#8, 0xAA#8, 0x12#8] := by decide +kernel

/-- T-U9: minimum capacity. -/
theorem test_commandFailed :
    (nextOf (exec (.commandFailed (bus 16 2 [0x01#8, 0x07#8]) 0 []) start)).map State.wire =
      some [0x01#8, 0x07#8] := by decide +kernel

/-- T-U7. -/
theorem test_commandNotSupported :
    (nextOf (exec (.commandNotSupported (bus 16 8 [0x10#8, 0x70#8]) 0 []) start)).map State.wire =
      some [0x02#8, 0x0E#8] := by decide +kernel

/-- T-U2 as its status row: TE's own answer, no dispatcher call. -/
theorem test_invalidTransfer :
    (nextOf (exec (.invalidTransfer (bus 16 2 [0x00#8]) 0 []) start)).map (fun u => (u.wire, u.history)) =
      some ([0x03#8, 0x09#8], [.xferDone 2]) := by decide +kernel

/-- T-U14: relayed from the dispatcher. -/
theorem test_invalidCrc :
    (nextOf (exec (.invalidCrc (bus 16 8 [0x05#8, 0x1B#8]) 0 []) start)).map (fun u => (u.wire, u.history)) =
      some ([0x04#8, 0x1C#8], [.dispatchCall 0x05#8 0 6, .dispatchAnswer 0x04#8 0, .xferDone 2]) := by decide +kernel

/-- The trailer of status 0x05 (T-C3). -/
theorem test_invalidArguments :
    (nextOf (exec (.invalidArguments request 0 []) start)).map State.wire = some [0x05#8, 0x1B#8] := by decide +kernel

/-- T-U15: NO_REPLY skips the length check. -/
theorem test_noReply :
    (nextOf (exec (.noReply (bus 16 4 [0x05#8, 0x1B#8]) 200 []) start)).map (fun u => (u.len, u.history)) =
      some (0, [.dispatchCall 0x05#8 0 2, .dispatchAnswer 0xFF#8 200, .xferDone 0]) := by decide +kernel

/-- T-U11, T-U12, T-U13: the three faults, each with what the history holds by then. -/
theorem test_xfer_faults :
    faultOf (exec (.xfer ⟨16, [0x01#8], 2⟩ none) start) = some (.lenExceedsCap start) ∧
    (match exec (.xfer (bus 16 8 [0x05#8, 0x1B#8]) (some ⟨0x07#8, 0, []⟩)) start with
      | .fault (.dispatcherBadStatus f) => f.history | _ => []) =
      [.dispatchCall 0x05#8 0 6, .dispatchAnswer 0x07#8 0] ∧
    (match exec (.xfer (bus 16 4 [0x05#8, 0x1B#8]) (some ⟨0x00#8, 3, []⟩)) start with
      | .fault (.dispatcherOverrun f) => f.history | _ => []) =
      [.dispatchCall 0x05#8 0 2, .dispatchAnswer 0x00#8 3] := by decide +kernel

/-- T-B1: no XFER is enabled while halted. -/
theorem test_xfer_halted : refusalIn (exec (.xfer request none) halted) = some .xferWhileHalted := by decide +kernel

/-- E-K, keys 6 and 12: both lines changed. -/
theorem test_quadSample_double :
    (nextOf (exec (.quadSample true false) (encoderAt 0b01#2 0x21#8 0x00#8 .idle))).map
      (fun u => (u.acc, u.prev, u.history)) = some (0x23#8, 0b10#2, []) ∧
    (nextOf (exec (.quadSample false false) (encoderAt 0b11#2 0x20#8 0x00#8 .idle))).map State.acc = some 0x1E#8 := by
  decide +kernel

/-- E-Q10 and E-Q13: the wrap below zero, and the request on the rest sample. -/
theorem test_quadSample_wrap :
    (nextOf (exec (.quadSample true false) start)).map State.acc = some 0xFF#8 ∧
    (nextOf (exec (.quadSample true true) (encoderAt 0b10#2 0x03#8 0x00#8 .idle))).map (fun u => (u.acc, u.history)) =
      some (0x04#8, [.drainRequest]) := by decide +kernel

/-- E-B2, E-B3: a rising edge, and the cap. -/
theorem test_btnEdge :
    (nextOf (exec (.btnEdge true) start)).map State.btn = some 0x00#8 ∧
    (nextOf (exec (.btnEdge false) { start with btn := 127#8 })).map State.btn = some 127#8 := by decide +kernel

/-- R85. -/
theorem test_drain :
    (nextOf (exec .drain { start with ddet := 0x05#8 })).map (fun u => (u.dph, u.ddet)) = some (.loop, 0x00#8) ∧
    refusalIn (exec .drain { start with dph := .clear }) = some .drainInProgress := by decide +kernel

/-- E-D1, E-D14: the first step on either side of the window. -/
theorem test_drainStep :
    (nextOf (exec .drainStep (encoderAt 0b11#2 0x04#8 0x00#8 .loop))).map (fun u => (u.last, u.ddet, u.dph)) =
      some (0x04#8, 0x01#8, .loop) ∧
    (nextOf (exec .drainStep (encoderAt 0b11#2 0xFC#8 0x00#8 .loop))).map (fun u => (u.last, u.ddet)) =
      some (0xFC#8, 0xFF#8) := by decide +kernel

/-- E-D2: the edge of the window ends the loop. -/
theorem test_drainStep_window :
    (nextOf (exec .drainStep (encoderAt 0b10#2 0x03#8 0x00#8 .loop))).map (fun u => (u.last, u.dph)) =
      some (0x00#8, .clear) ∧
    refusalIn (exec .drainStep start) = some .drainNotInLoop := by decide +kernel

/-- R87's example, with a negative detent count. -/
theorem test_drainClear :
    (nextOf (exec .drainClear { start with dph := .clear, btn := 127#8, ddet := 0xFF#8 })).map
      (fun u => (u.btn, u.dph, u.history)) = some (0x00#8, .idle, [.drainResult 0x7F#8 (-1)]) ∧
    refusalIn (exec .drainClear start) = some .drainNotAtClear := by decide +kernel

/-- E-R2, T-B7: a reset inside a drain, and the watchdog's. -/
theorem test_reset :
    (nextOf (exec (.reset .powerOn) (encoderAt 0b11#2 0x40#8 0x04#8 .loop))).map (fun u => (u.acc, u.dph, u.history)) =
      some (0x00#8, .idle, [.reset .powerOn]) ∧
    (nextOf (exec (.reset .watchdog) halted)).map (fun u => (u.mode, u.history)) = some (.run, [.reset .watchdog]) := by
  decide +kernel

/-- I8. -/
theorem test_reserved111 : refusalIn (exec .reserved111 start) = some .reservedSelector := by decide

/-- The checksum of an input that crosses a byte boundary of the polynomial (T-C4, T-C6). -/
theorem test_crc8 : crc8 [0x34#8, 0x12#8] = 0xD3#8 ∧ crc8 [0xFD#8, 0x00#8] = 0xFD#8 := by decide +kernel

/-! ### A witness for each statement with hypotheses -/

/-- DecodeOfEncode, with every operand kind. -/
theorem witness_decodeOfEncode :
    (Instr.commandOk request 2 [0x12#8, 0x34#8]).wf = true ∧ (Instr.quadSample true false).wf = true ∧
    (Instr.xfer (bus 16 1 [0x01#8]) none).wf = true := by decide +kernel

/-- EncodeOfDecodedOperation and DecodedIsWellFormed. -/
theorem witness_decoded :
    decode (.op [false, false, false] (some ⟨request, none⟩)) = .ok (.xfer request none) := by decide +kernel

/-- ReservedSelectorHasNoStep. -/
theorem witness_reservedInput :
    ({ start with inputs := [.op [true, true, true] none] } : State).inputs = [.op [true, true, true] none] := rfl

/-- StepRunsDecodedInstruction. -/
theorem witness_step :
    ({ start with inputs := [.op [false, true, true] none] } : State).inputs = [.op [false, true, true] none] ∧
    decode (.op [false, true, true] none) = .ok .drain := by decide

/-- StepKeepsInvariant: reset meets the invariant and its step answers a next state. -/
theorem witness_stepInvariant :
    Inv State.reset ∧ step (State.reset.withFetchWord 8 0x06) ≠ .refused .reservedSelector ∧
    (nextOf (step (State.reset.withFetchWord 8 0x06))).isSome = true := by
  refine ⟨⟨⟨by decide, by decide, by decide⟩, ⟨Memory.wf_nil, by simp [State.reset], by decide, by decide⟩, by unfold WatchdogInv; decide⟩,
    ?_, by decide +kernel⟩
  intro h
  have h2 : (nextOf (step (State.reset.withFetchWord 8 0x06))).isSome = true := by decide +kernel
  rw [h] at h2
  cases h2

/-- HistoryOnlyGrows, EncoderElementsHaveTheirWriters, EncoderLeavesTransportAlone: an instruction that answers a next state. -/
theorem witness_encoderNext :
    exec .drain start = .next { start with dph := .loop } ∧ Instr.drain.isEncoder = true ∧
    ∀ src, Instr.drain ≠ .reset src := ⟨rfl, rfl, by simp⟩

/-- StepsExactlyWhenEnabled: well-formed, duties kept; enabled in RUN, not enabled in HALTED. -/
theorem witness_enabled :
    (Instr.commandOk request 2 [0x12#8, 0x34#8]).wf = true ∧
    (Instr.commandOk request 2 [0x12#8, 0x34#8]).keepsDuties = true ∧
    (Instr.commandOk request 2 [0x12#8, 0x34#8]).enabled start = true ∧
    (Instr.commandOk request 2 [0x12#8, 0x34#8]).enabled halted = false := by decide +kernel

/-- ResetSetsEveryElement, both sources. -/
theorem witness_reset : (ResetSource.powerOn = .powerOn ∨ start.mode = .halted) ∧
    (ResetSource.watchdog = .powerOn ∨ halted.mode = .halted) := by decide

/-- WatchdogResetNeedsHalt and InitialStateIsAfterPowerOn. -/
theorem witness_start : start.mode = .run ∧ start.history = [] := by decide

/-- HaltIsEnteredAndLeftOnlyByReset: halt entered, and left. -/
theorem witness_haltEnteredAndLeft :
    (nextOf (exec (.bcastReset (bus 0 1 [0x06#8])) start)).map State.mode = some .halted ∧
    (nextOf (exec (.reset .watchdog) halted)).map State.mode = some .run := by decide +kernel

/-- NoXferWhileHalted. -/
theorem witness_halted : (Instr.uShort (bus 16 8 [])).isTransport = true ∧ halted.mode = .halted := by decide

/-- A run that is reset by the watchdog and then only sees rising button edges. -/
def resetRun : Run where
  state n := if n = 0 then halted else resetElements .watchdog halted
  op n := if n = 0 then .reset .watchdog else .btnEdge true
  moves := by
    intro n
    cases n with
    | zero => rfl
    | succ n => rfl

/-- FairRunLeavesHalt. -/
theorem witness_fairRun : resetRun.watchdogFair ∧ (resetRun.state 0).mode = .halted := by
  refine ⟨fun n h => ?_, rfl⟩
  have h1 := h (n + 1) (by omega)
  simp [resetRun, resetElements] at h1

/-- A run that requests a drain, starts it, and then only sees rising button edges. -/
def drainRun : Run where
  state n := if n = 0 then start else if n = 1 then { start with history := [.drainRequest] }
    else { start with history := [.drainRequest], dph := .loop }
  op n := if n = 0 then .quadSample true true else if n = 1 then .drain else .btnEdge true
  moves := by
    intro n
    match n with
    | 0 => rfl
    | 1 => rfl
    | n + 2 => rfl

/-- FairSchedulerServesRest. -/
theorem witness_fairScheduler :
    drainRun.schedulerFair ∧ EncoderInv (drainRun.state 0) ∧ drainRun.op 0 = .quadSample true true := by
  refine ⟨fun n h => ?_, ⟨by decide, by decide, by decide⟩, rfl⟩
  match n with
  | 0 => exact ⟨1, by omega, rfl⟩
  | 1 => simp [drainRun] at h
  | n + 2 => simp [drainRun] at h

/-- A drain of one step, and then only rising button edges. -/
def shortDrainRun : Run where
  state n := if n = 0 then { start with dph := .loop } else if n = 1 then { start with dph := .clear }
    else { start with history := [.drainResult 0x00#8 0] }
  op n := if n = 0 then .drainStep else if n = 1 then .drainClear else .btnEdge true
  moves := by
    intro n
    match n with
    | 0 => rfl
    | 1 => rfl
    | n + 2 => rfl

/-- FairMainContextEndsDrain. -/
theorem witness_fairMainContext :
    shortDrainRun.drainFair ∧ (shortDrainRun.state 0).dph ≠ .idle ∧
    ∀ m, (∀ a b, shortDrainRun.op m ≠ .quadSample a b) ∧ ∀ src, shortDrainRun.op m ≠ .reset src := by
  refine ⟨fun n h => ?_, by decide, fun m => ?_⟩
  · match n with
    | 0 => exact ⟨0, le_rfl, .inl rfl⟩
    | 1 => exact ⟨1, le_rfl, .inr (.inl rfl)⟩
    | n + 2 => exact absurd rfl h
  · match m with
    | 0 => simp [shortDrainRun]
    | 1 => simp [shortDrainRun]
    | m + 2 => simp [shortDrainRun]

/-- SingleByteCorruptionIsAnswered: T-C7. -/
theorem witness_corruption :
    start.mode = .run ∧ (16 : Nat) ≠ 0 ∧ 2 ≤ ([0x01#8] ++ 0x12#8 :: [0x34#8, 0x9A#8]).length ∧
    crc8 ([0x01#8] ++ 0x12#8 :: [0x34#8, 0x9A#8]) = 0x00#8 ∧ (0x12#8 : Byte) ≠ 0x13#8 := by decide +kernel

/-- XferIgnoresLastBuffer and TransportLeavesEncoderAlone. -/
theorem witness_transportNext :
    (Instr.uNocap (bus 16 1 [])).isTransport = true ∧
    (nextOf (exec (.uNocap (bus 16 1 [])) start)).isSome = true := by decide +kernel

/-- BroadcastResetHalts and BroadcastResetReachesEveryDevice. -/
theorem witness_broadcastReset :
    start.mode = .run ∧ IsBroadcast (bus 0 1 [0x06#8]) ∧ (bus 0 1 [0x06#8]).frame.head? = some 0x06#8 ∧
    ∀ d ∈ [start, start], d.mode = .run :=
  ⟨rfl, ⟨rfl, by decide⟩, rfl, by simp [start, State.reset]⟩

/-- BroadcastResetAddressCallsCollaborator. -/
theorem witness_broadcastAddress :
    IsBroadcast (bus 0 2 [0x04#8, 0x06#8]) ∧ (bus 0 2 [0x04#8, 0x06#8]).frame.head? = some 0x04#8 :=
  ⟨⟨rfl, by decide⟩, rfl⟩

/-- BroadcastNopIsSilent: no byte at all, and the bytes beside the two commands. -/
theorem witness_broadcastNop :
    (IsBroadcast (bus 0 0 []) ∧ (bus 0 0 []).frame.head? ≠ some 0x04#8 ∧ (bus 0 0 []).frame.head? ≠ some 0x06#8) ∧
    (IsBroadcast (bus 0 1 [0x05#8]) ∧ (bus 0 1 [0x05#8]).frame.head? ≠ some 0x04#8 ∧
      (bus 0 1 [0x05#8]).frame.head? ≠ some 0x06#8) :=
  ⟨⟨⟨rfl, by decide⟩, by decide, by decide⟩, ⟨rfl, by decide⟩, by decide, by decide⟩

/-- NoCapacityNoReply, at the last capacity below the floor. -/
theorem witness_noCapacity : (bus 16 1 [0x01#8]).addr ≠ 0 ∧ (bus 16 1 [0x01#8]).cap < 2 ∧
    (bus 16 1 [0x01#8]).len ≤ (bus 16 1 [0x01#8]).cap := by decide

/-- ShortFrameIsAnswered and the first clause of TransportStatusesAreProducedByTransport, at the floor. -/
theorem witness_short : IsUnicast (bus 16 2 [0x00#8]) ∧ (bus 16 2 [0x00#8]).len < 2 :=
  ⟨⟨by decide, by decide, by decide⟩, by decide⟩

/-- BadChecksumIsAnswered and the second clause of TransportStatusesAreProducedByTransport, at the shortest length. -/
theorem witness_badChecksum : IsUnicast (bus 16 2 [0x01#8, 0x00#8]) ∧ 2 ≤ (bus 16 2 [0x01#8, 0x00#8]).len ∧
    crc8 (bus 16 2 [0x01#8, 0x00#8]).frame ≠ 0x00#8 :=
  ⟨⟨by decide, by decide, by decide⟩, by decide, by decide +kernel⟩

/-- DispatcherAnswerBecomesReply, StatusRowsRelayTheirStatus and VerifiedRequestCompletes: the longest reply the capacity admits. -/
theorem witness_verified :
    start.mode = .run ∧ IsVerified request ∧ request.frame.head? = some 0x01#8 ∧ (0x05#8 : Byte).toNat ≤ 0x05 ∧
    6 ≤ request.cap - 2 ∧ [0x12#8, 0x34#8].length ≤ request.cap - 2 :=
  ⟨rfl, ⟨⟨by decide, by decide, by decide⟩, by decide, by decide +kernel⟩, rfl, by decide, by decide, by decide⟩

/-- NoReplySuppressesReply: at the smallest capacity. -/
theorem witness_noReply :
    IsVerified (bus 16 2 [0x01#8, 0x07#8]) ∧ (bus 16 2 [0x01#8, 0x07#8]).frame.head? = some 0x01#8 ∧
    ([] : List Byte).length ≤ (bus 16 2 [0x01#8, 0x07#8]).cap - 2 :=
  ⟨⟨⟨by decide, by decide, by decide⟩, by decide, by decide +kernel⟩, rfl, by decide⟩

/-- EveryCommandReachesDispatcher: command 0xFF with a payload byte. -/
theorem witness_everyCommand :
    Answer.keepsContract ⟨0x00#8, 1, []⟩ ⟨16, ([0xFF#8, 0x12#8] ++ [crc8 [0xFF#8, 0x12#8]]) ++ [], 3⟩ = true := by
  decide +kernel

/-- LenAboveCapFaults, at the first length above the capacity. -/
theorem witness_lenAboveCap : start.mode = .run ∧ (⟨16, [0x01#8], 2⟩ : Transaction).cap < 2 := by decide

/-- DispatcherBreachFaults: the statuses at both ends of the undefined range, and a reply one byte too long. -/
theorem witness_breach :
    (0x05 < (0x06#8 : Byte).toNat ∧ (0x06#8 : Byte) ≠ 0xFF#8) ∧ (0x05 < (0xFE#8 : Byte).toNat ∧ (0xFE#8 : Byte) ≠ 0xFF#8) ∧
    ((0x05#8 : Byte).toNat ≤ 0x05 ∧ request.cap - 2 < 7) := by decide

/-- CompletedXferProperties: an XFER that completes on each kind of path. -/
theorem witness_completed :
    (nextOf (exec (.xfer (bus 0 0 []) none) start)).map State.mode = some .run ∧
    (nextOf (exec (.xfer (bus 16 2 [0x00#8]) none) start)).map State.mode = some .run ∧
    (nextOf (exec (.xfer (bus 16 2 [0x01#8, 0x00#8]) none) start)).map State.mode = some .run ∧
    (nextOf (exec (.xfer request (some ⟨0x00#8, 6, []⟩)) start)).map (fun u => (u.mode, u.len)) = some (.run, 8) := by
  decide +kernel

/-- DrainRequestedExactlyAtRest, RestPhaseSelfCorrects and RotationFromRest: at rest, and one edge past rest. -/
theorem witness_rotation :
    (EncoderInv start ∧ start.prev = 0b11#2 ∧ start.dph = .idle ∧ start.last = start.acc) ∧
    (EncoderInv (encoderAt 0b01#2 0x01#8 0x00#8 .idle) ∧ (encoderAt 0b01#2 0x01#8 0x00#8 .idle).prev = 0b01#2) :=
  ⟨⟨⟨by decide, by decide, by decide⟩, rfl, rfl, rfl⟩, ⟨by decide, by decide, by decide⟩, rfl⟩

/-- PressesAccumulateUpToCap and PressesSaturateAndAreReported, at the cap. -/
theorem witness_presses :
    ({ start with btn := 127#8 } : State).btn.toNat ≤ 127 ∧ ({ start with btn := 127#8 } : State).dph = .idle ∧
    (∀ i ∈ [Instr.btnEdge false, .drain], i ≠ .drainClear ∧ ∀ src, i ≠ .reset src) ∧
    (nextOf (execAll [.btnEdge false, .drain] start)).isSome = true :=
  ⟨by decide, rfl, by simp, by decide⟩

/-- DrainStarts and DrainClearReportsAndClears: both clauses of each. -/
theorem witness_drainPhases :
    start.dph = .idle ∧ ({ start with dph := .clear } : State).dph ≠ .idle ∧
    ({ start with dph := .clear } : State).dph = .clear ∧ start.dph ≠ .clear := by decide

/-- DrainStepConvertsOneDetent: each clause at its boundary, -4, 4, -3, 3 and outside LOOP. -/
theorem witness_drainStep :
    (encoderAt 0b11#2 0xFC#8 0x00#8 .loop).dph = .loop ∧ ((0xFC#8 : Byte) - 0x00#8).toInt < -3 ∧
    3 < ((0x04#8 : Byte) - 0x00#8).toInt ∧
    (-3 ≤ ((0xFD#8 : Byte) - 0x00#8).toInt ∧ ((0xFD#8 : Byte) - 0x00#8).toInt ≤ 3) ∧
    (-3 ≤ ((0x03#8 : Byte) - 0x00#8).toInt ∧ ((0x03#8 : Byte) - 0x00#8).toInt ≤ 3) ∧ start.dph ≠ .loop := by decide

/-- PressesAroundClearAreKept. -/
theorem witness_clear :
    EncoderInv { start with btn := 127#8, dph := .clear } ∧ ({ start with btn := 127#8, dph := .clear } : State).dph = .clear :=
  ⟨⟨by decide, by decide, by decide⟩, rfl⟩

/-- CompleteDrainClosedForm: a state whose difference is -128 (E-D4), and the boundaries of the clauses. -/
theorem witness_completeDrain :
    (EncoderInv (encoderAt 0b11#2 0x80#8 0x00#8 .idle) ∧ (encoderAt 0b11#2 0x80#8 0x00#8 .idle).dph = .idle) ∧
    ((0x80#8 : Byte) - 0x00#8).toInt = -128 ∧ detentsOf (-128) = -32 ∧ detentsOf 127 = 31 ∧
    detentsOf 3 = 0 ∧ detentsOf (-3) = 0 ∧ detentsOf 4 = 1 ∧ detentsOf (-4) = -1 ∧ detentsOf (-122) = -30 :=
  ⟨⟨⟨by decide, by decide, by decide⟩, rfl⟩, by decide, by decide, by decide, by decide, by decide, by decide, by decide,
    by decide⟩

/-- EncoderRaisesNoFault. -/
theorem witness_encoder : (Instr.quadSample true true).isEncoder = true := rfl

end Sys2Proof.Tests
end

section
/-!
PROOFS. The two engines of 00_scope.md R1 share no state: every operation of one engine commutes with replacing the other engine's
elements. That the other engine's elements are left as they were is the case where they are replaced by themselves.
-/

namespace Sys2Proof.Machine

/-! ### Results under a change of state -/

/-- A fault, with the state it carries changed by `f`. -/
def Fault.mapState (f : State → State) : Fault → Fault
  | .lenExceedsCap s => .lenExceedsCap (f s)
  | .dispatcherBadStatus s => .dispatcherBadStatus (f s)
  | .dispatcherOverrun s => .dispatcherOverrun (f s)

/-- A result, with the state it carries changed by `f`. -/
def mapResult (f : State → State) : Result → Result
  | .next s => .next (f s)
  | .fault r => .fault (r.mapState f)
  | .refused r => .refused r

@[simp] theorem mapResult_next (f : State → State) (s : State) : mapResult f (.next s) = .next (f s) := rfl
@[simp] theorem mapResult_refused (f : State → State) (r : Refusal) : mapResult f (.refused r) = .refused r := rfl

/-! ### Replacing the encoder's elements -/

/-- `s` with the encoder elements (R12 to R16) of `e`. -/
def withEncoderOf (e s : State) : State :=
  { s with prev := e.prev, acc := e.acc, last := e.last, btn := e.btn, dph := e.dph, ddet := e.ddet }

section
variable (e s : State)

@[simp] theorem withEncoderOf_mode : (withEncoderOf e s).mode = s.mode := rfl
@[simp] theorem withEncoderOf_self : withEncoderOf s s = s := rfl

@[simp] theorem loadXfer_withEncoderOf (t : Transaction) :
    loadXfer t (withEncoderOf e s) = withEncoderOf e (loadXfer t s) := rfl

@[simp] theorem completeXfer_withEncoderOf (n : Nat) :
    completeXfer n (withEncoderOf e s) = withEncoderOf e (completeXfer n s) := rfl

@[simp] theorem replyWith_withEncoderOf (c : Byte) (r : Nat) :
    replyWith c r (withEncoderOf e s) = withEncoderOf e (replyWith c r s) := rfl

@[simp] theorem maxReplyLen_withEncoderOf : maxReplyLen (withEncoderOf e s) = maxReplyLen s := rfl

@[simp] theorem answerOf_withEncoderOf (given : Option Answer) :
    answerOf given (withEncoderOf e s) = answerOf given s := by cases given <;> rfl

@[simp] theorem callDispatcher_withEncoderOf (given : Option Answer) :
    callDispatcher given (withEncoderOf e s) = withEncoderOf e (callDispatcher given s) := by cases given <;> rfl

theorem whenRunning_withEncoderOf (k : Result) :
    whenRunning (withEncoderOf e s) (mapResult (withEncoderOf e) k) =
      mapResult (withEncoderOf e) (whenRunning s k) := by
  cases hm : s.mode <;> simp [hm]

theorem afterDispatch_withEncoderOf (c : Byte) (r : Nat) :
    afterDispatch c r (withEncoderOf e s) = mapResult (withEncoderOf e) (afterDispatch c r s) := by
  rw [afterDispatch, afterDispatch, maxReplyLen_withEncoderOf]
  split_ifs <;> rfl

theorem pathUDispatch_withEncoderOf (given : Option Answer) :
    pathUDispatch given (withEncoderOf e s) = mapResult (withEncoderOf e) (pathUDispatch given s) := by
  simp [pathUDispatch, afterDispatch_withEncoderOf]

theorem runPath_withEncoderOf (t : Transaction) (given : Option Answer) :
    runPath t given (withEncoderOf e s) = mapResult (withEncoderOf e) (runPath t given s) := by
  unfold runPath
  cases pathOf t with
  | none => rfl
  | some p =>
    cases p with
    | uDispatch => exact pathUDispatch_withEncoderOf e (loadXfer t s) given
    | _ => rfl

theorem onPath_withEncoderOf (p : Path) (t : Transaction) {k : State → Result}
    (hk : ∀ s, k (withEncoderOf e s) = mapResult (withEncoderOf e) (k s)) :
    onPath p t (withEncoderOf e s) k = mapResult (withEncoderOf e) (onPath p t s k) := by
  simp only [onPath, ← whenRunning_withEncoderOf, loadXfer_withEncoderOf, hk,
    apply_ite (mapResult (withEncoderOf e)), mapResult_refused]

theorem xferEndingWith_withEncoderOf (c : Byte) (t : Transaction) (r : Nat) (region : List Byte) :
    xferEndingWith c t r region (withEncoderOf e s) =
      mapResult (withEncoderOf e) (xferEndingWith c t r region s) := by
  simp only [xferEndingWith, ← whenRunning_withEncoderOf, runPath_withEncoderOf,
    apply_ite (mapResult (withEncoderOf e)), mapResult_refused]

theorem execXfer_withEncoderOf (t : Transaction) (answer : Option Answer) :
    execXfer t answer (withEncoderOf e s) = mapResult (withEncoderOf e) (execXfer t answer s) := by
  simp only [execXfer, ← whenRunning_withEncoderOf, runPath_withEncoderOf]

/-- The transport engine under other encoder state (R1), whatever it answers. -/
theorem exec_transport_withEncoderOf {i : Instr} (hi : i.isTransport = true) :
    exec i (withEncoderOf e s) = mapResult (withEncoderOf e) (exec i s) := by
  cases i with
  | bcastReset t => exact onPath_withEncoderOf e s _ t fun _ => rfl
  | bcastResetAddress t => exact onPath_withEncoderOf e s _ t fun _ => rfl
  | bcastNop t => exact onPath_withEncoderOf e s _ t fun _ => rfl
  | uNocap t => exact onPath_withEncoderOf e s _ t fun _ => rfl
  | uShort t => exact onPath_withEncoderOf e s _ t fun _ => rfl
  | uBadcrc t => exact onPath_withEncoderOf e s _ t fun _ => rfl
  | unicastRequest t => exact onPath_withEncoderOf e s _ t fun s => pathUDispatch_withEncoderOf e s none
  | commandOk t r region => exact xferEndingWith_withEncoderOf e s _ t r region
  | commandFailed t r region => exact xferEndingWith_withEncoderOf e s _ t r region
  | commandNotSupported t r region => exact xferEndingWith_withEncoderOf e s _ t r region
  | invalidTransfer t r region => exact xferEndingWith_withEncoderOf e s _ t r region
  | invalidCrc t r region => exact xferEndingWith_withEncoderOf e s _ t r region
  | invalidArguments t r region => exact xferEndingWith_withEncoderOf e s _ t r region
  | noReply t r region => exact xferEndingWith_withEncoderOf e s _ t r region
  | xfer t answer => exact execXfer_withEncoderOf e s t answer
  | quadSample => cases hi
  | btnEdge => cases hi
  | drain => cases hi
  | drainStep => cases hi
  | drainClear => cases hi
  | reset => cases hi
  | reserved111 => cases hi

end

/-- A transport instruction that answers a next state leaves every encoder element as it was (R1). -/
theorem exec_transport_next_withEncoderOf {i : Instr} {s u : State} (hi : i.isTransport = true)
    (h : exec i s = .next u) : u = withEncoderOf s u := by
  simpa [h] using exec_transport_withEncoderOf s s hi

/-! ### Replacing the transport engine's elements -/

/-- `s` with the transport elements (R10, R11) of `e`, and its count of free dispatcher answers (log 3). -/
def withTransportOf (e s : State) : State :=
  { s with mode := e.mode, buf := e.buf, len := e.len, cap := e.cap, draws := e.draws }

section
variable (e s : State)

@[simp] theorem withTransportOf_dph : (withTransportOf e s).dph = s.dph := rfl
@[simp] theorem withTransportOf_self : withTransportOf s s = s := rfl

theorem execQuadSample_withTransportOf (a b : Bool) :
    execQuadSample a b (withTransportOf e s) = mapResult (withTransportOf e) (execQuadSample a b s) := by
  simp only [execQuadSample_eq]
  rfl

theorem execBtnEdge_withTransportOf (l : Bool) :
    execBtnEdge l (withTransportOf e s) = mapResult (withTransportOf e) (execBtnEdge l s) := by
  simp only [execBtnEdge_eq]
  rfl

theorem convertDetent_withTransportOf :
    convertDetent (withTransportOf e s) = withTransportOf e (convertDetent s) := by
  simp only [convertDetent, apply_ite (withTransportOf e)]
  rfl

theorem execDrain_withTransportOf :
    execDrain (withTransportOf e s) = mapResult (withTransportOf e) (execDrain s) := by
  cases hd : s.dph <;> simp only [execDrain, withTransportOf_dph, hd] <;> rfl

theorem execDrainStep_withTransportOf :
    execDrainStep (withTransportOf e s) = mapResult (withTransportOf e) (execDrainStep s) := by
  cases hd : s.dph <;> simp [execDrainStep, hd, convertDetent_withTransportOf]

theorem execDrainClear_withTransportOf :
    execDrainClear (withTransportOf e s) = mapResult (withTransportOf e) (execDrainClear s) := by
  cases hd : s.dph <;> simp only [execDrainClear, withTransportOf_dph, hd] <;> rfl

/-- The encoder engine under other transport state, HALTED included (R1, R64), whatever it answers. -/
theorem exec_encoder_withTransportOf {i : Instr} (hi : i.isEncoder = true) :
    exec i (withTransportOf e s) = mapResult (withTransportOf e) (exec i s) := by
  cases i with
  | quadSample a b => exact execQuadSample_withTransportOf e s a b
  | btnEdge l => exact execBtnEdge_withTransportOf e s l
  | drain => exact execDrain_withTransportOf e s
  | drainStep => exact execDrainStep_withTransportOf e s
  | drainClear => exact execDrainClear_withTransportOf e s
  | _ => cases hi

end

/-- An encoder instruction that answers a next state leaves every transport element as it was (R1). -/
theorem exec_encoder_next_withTransportOf {i : Instr} {s u : State} (hi : i.isEncoder = true)
    (h : exec i s = .next u) : u = withTransportOf s u := by
  simpa [h] using exec_encoder_withTransportOf s s hi

end Sys2Proof.Machine

namespace Sys2Proof

open Sys2Proof.Machine

/-- Settles O39: a transport instruction commutes with replacing the encoder's elements. -/
theorem transportLeavesEncoderAlone : Obligations.TransportLeavesEncoderAlone := by
  intro i s u prev acc last btn ddet dph hi h
  have hkeep := exec_transport_next_withEncoderOf hi h
  have hother := exec_transport_withEncoderOf
    { s with prev := prev, acc := acc, last := last, btn := btn, dph := dph, ddet := ddet } s hi
  rw [h] at hother
  refine ⟨?_, hother⟩
  rw [hkeep]
  exact ⟨rfl, rfl, rfl, rfl, rfl, rfl⟩

/-- Settles O40: an encoder instruction commutes with replacing the transport engine's elements. -/
theorem encoderLeavesTransportAlone : Obligations.EncoderLeavesTransportAlone := by
  intro i s u mode buf len cap draws hi h
  have hkeep := exec_encoder_next_withTransportOf hi h
  have hother := exec_encoder_withTransportOf
    { s with mode := mode, buf := buf, len := len, cap := cap, draws := draws } s hi
  rw [h] at hother
  refine ⟨?_, hother⟩
  rw [hkeep]
  exact ⟨rfl, rfl, rfl, rfl, rfl⟩

end Sys2Proof
end

section
/-!
PROOFS. What one step can do, said once: an instruction's meaning inverted into the states it can lead to, the operations that an XFER
is made of, and the bounds of what the decoder lets through.
-/

namespace Sys2Proof.Machine

/-! ### What exec can do -/

/-- The next states of an instruction: an XFER's (R62), those of the five encoder operations (R81 to R87), and RESET's (R120). -/
inductive Leads (s : State) : Instr → State → Prop
  | transport {i : Instr} {u : State} (b : BusInput) (hi : i.isTransport = true) (hm : s.mode = .run)
      (hb : i.busInput = some b) (h : runPath b.transaction b.answer s = .next u) : Leads s i u
  | quadSample (a b : Bool) : Leads s (.quadSample a b)
      { s with
        acc := quadAcc a b s
        prev := sampleOf a b
        history := if atDetent (quadAcc a b s) then s.history ++ [.drainRequest] else s.history }
  | btnEdge (l : Bool) : Leads s (.btnEdge l) { s with btn := if qualifies l then countPress s.btn else s.btn }
  | drain (hd : s.dph = .idle) : Leads s .drain { s with ddet := 0x00#8, dph := .loop }
  | drainStep (hd : s.dph = .loop) : Leads s .drainStep (convertDetent s)
  | drainClear (hd : s.dph = .clear) : Leads s .drainClear
      { s with btn := 0x00#8, dph := .idle, history := s.history ++ [.drainResult (drainWord s.btn) (s8 s.ddet)] }
  | reset (src : ResetSource) (hs : src = .powerOn ∨ s.mode = .halted) : Leads s (.reset src) (resetElements src s)

/-- Every next state of `exec` is one of those of `Leads`. -/
theorem leads_of_exec {i : Instr} {s u : State} (h : exec i s = .next u) : Leads s i u := by
  by_cases hi : i.isTransport = true
  · obtain ⟨hm, b, hb, hrun⟩ := exec_transport_next hi h
    exact .transport b hi hm hb hrun
  · cases i with
    | quadSample a b => cases (execQuadSample_eq a b s).symm.trans h; exact .quadSample a b
    | btnEdge l => cases (execBtnEdge_eq l s).symm.trans h; exact .btnEdge l
    | drain => obtain ⟨hd, rfl⟩ := execDrain_next h; exact .drain hd
    | drainStep => obtain ⟨hd, rfl⟩ := execDrainStep_next h; exact .drainStep hd
    | drainClear => obtain ⟨hd, rfl⟩ := execDrainClear_next h; exact .drainClear hd
    | reset src => obtain ⟨hs, rfl⟩ := execReset_next h; exact .reset src hs
    | reserved111 => cases h
    | _ => exact absurd rfl hi

/-- A step that completes idles without inputs, or runs the instruction its first input decodes to. -/
theorem step_next {s u : State} (h : step s = .next u) :
    u = s ∨ ∃ w rest i, decode w = .ok i ∧ exec i { s with inputs := rest } = .next u := by
  unfold step fetch at h
  cases hin : s.inputs with
  | nil => simp only [hin] at h; cases h; exact .inl rfl
  | cons w rest =>
    simp only [hin] at h
    cases hw : decode w with
    | ok i => exact .inr ⟨w, rest, i, hw, by simpa [hw] using h⟩
    | error e => simp [hw] at h

/-! ### What an XFER is made of -/

/-- A transaction that has a path lies within its buffer (R77); the path is a broadcast's, the one below the capacity floor, or one of
the three that have room for a reply (R62, R63, R67). -/
theorem pathOf_eq_some {t : Transaction} {p : Path} (h : pathOf t = some p) :
    t.len ≤ t.cap ∧
      ((t.addr = 0 ∧ p = broadcastPath t.frame) ∨ p = .uNocap ∨
        (2 ≤ t.cap ∧ (p = .uShort ∨ p = .uBadcrc ∨ p = .uDispatch))) := by
  unfold pathOf at h
  split_ifs at h with hlen haddr hcap <;> cases h <;> refine ⟨by omega, ?_⟩
  · exact .inl ⟨haddr, rfl⟩
  · exact .inr (.inl rfl)
  · exact .inr (.inr ⟨by omega, .inl rfl⟩)
  · exact .inr (.inr ⟨by omega, .inr (.inl rfl)⟩)
  · exact .inr (.inr ⟨by omega, .inr (.inr rfl)⟩)

/-- The paths of a broadcast are the broadcast ones (R63). -/
theorem broadcastPath_cases (f : List Byte) :
    (broadcastPath f = .bcastReset ∧ f.head? = some 0x06#8) ∨ broadcastPath f = .bcastResetAddress ∨
      broadcastPath f = .bcastNop := by
  cases f with
  | nil => exact .inr (.inr rfl)
  | cons b f =>
    rw [broadcastPath]
    split
    · exact .inl ⟨rfl, by simpa⟩
    · split
      · exact .inr (.inl rfl)
      · exact .inr (.inr rfl)

/-- The path BCAST_RESET is taken by the broadcasts of command 0x06 only (R45, R63). -/
theorem broadcast_of_pathOf_bcastReset {t : Transaction} (h : pathOf t = some .bcastReset) :
    IsBroadcast t ∧ t.frame.head? = some 0x06#8 := by
  obtain ⟨hlen, ⟨haddr, hp⟩ | hp | ⟨-, hp⟩⟩ := pathOf_eq_some h
  · rcases broadcastPath_cases t.frame with ⟨-, hb⟩ | hb | hb
    · exact ⟨⟨haddr, hlen⟩, hb⟩
    · cases hp.trans hb
    · cases hp.trans hb
  · cases hp
  · simp at hp

/-- The paths that reply have room for a reply (R67). -/
theorem two_le_cap_of_pathOf {t : Transaction} {p : Path} (h : pathOf t = some p)
    (hp : p = .uShort ∨ p = .uBadcrc ∨ p = .uDispatch) : 2 ≤ t.cap := by
  obtain ⟨-, ⟨-, hb⟩ | rfl | ⟨hcap, -⟩⟩ := pathOf_eq_some h
  · subst hb
    rcases broadcastPath_cases t.frame with ⟨hb, -⟩ | hb | hb <;> simp [hb] at hp
  · simp at hp
  · exact hcap

/-- An XFER that completes lies within its buffer (R77). -/
theorem runPath_next_len_le {t : Transaction} {given : Option Answer} {s u : State}
    (h : runPath t given s = .next u) : t.len ≤ t.cap := by
  cases hp : pathOf t with
  | none => simp [runPath, hp] at h
  | some p => exact (pathOf_eq_some hp).1

/-- `P` is kept by each operation an XFER is made of once its operands are loaded. -/
structure KeptByXfer (P : State → Prop) : Prop where
  request : ∀ s, P s → P (emit .addressResetRequest s)
  call : ∀ given s, P s → P (callDispatcher given s)
  done : ∀ s, P s → P (completeXfer 0 s)
  reply : ∀ c r s, r + 2 ≤ s.cap → P s → P (replyWith c r s)

/-- What holds of the loaded state and of the halted one, and is kept by the operations between, holds after every path (R62). -/
theorem KeptByXfer.of_runPath {P : State → Prop} (hP : KeptByXfer P) {t : Transaction} {given : Option Answer}
    {s u : State} (h : runPath t given s = .next u) (hload : P (loadXfer t s))
    (hhalt : pathOf t = some .bcastReset → P { emit .watchdogArm (loadXfer t s) with mode := .halted }) : P u := by
  obtain ⟨hp, rfl⟩ | ⟨hp, rfl⟩ | ⟨hp, rfl⟩ | ⟨hp, rfl⟩ | ⟨hp, rfl⟩ | ⟨hp, rfl⟩ | ⟨hp, h⟩ := runPath_next h
  · exact hhalt hp
  · exact hP.done _ (hP.request _ hload)
  · exact hP.done _ hload
  · exact hP.done _ hload
  · exact hP.reply _ 0 _ (two_le_cap_of_pathOf hp (by simp)) hload
  · exact hP.reply _ 0 _ (two_le_cap_of_pathOf hp (by simp)) hload
  · have hcall := hP.call given _ hload
    obtain ⟨-, rfl⟩ | ⟨-, -, hr, rfl⟩ := afterDispatch_next h
    · exact hP.done _ hcall
    · have hcap : 2 ≤ t.cap := two_le_cap_of_pathOf hp (by simp)
      simp only [maxReplyLen, callDispatcher_cap, loadXfer_cap] at hr
      exact hP.reply _ _ _ (by simp only [callDispatcher_cap, loadXfer_cap]; omega) hcall

end Sys2Proof.Machine

namespace Sys2Proof

/-! ### What the decoder lets through -/

theorem decodeBits_busInput {bits : List Bool} {i : Instr} (h : decodeBits bits = .ok i) : i.busInput = none := by
  unfold decodeBits at h
  split at h <;> cases h <;> rfl

theorem pathInstr_busInput (p : Path) (t : Transaction) : (pathInstr p t).busInput = some ⟨t, none⟩ := by
  cases p <;> rfl

theorem statusInstr_busInput {a : Answer} {t : Transaction} {i : Instr} (h : statusInstr a t = some i) :
    i.busInput = some ⟨t, some a⟩ := by
  obtain ⟨c, r, region⟩ := a
  unfold statusInstr at h
  split_ifs at h with hc hc hc hc hc hc hc <;> cases h <;> cases hc <;> rfl

/-- A frame decodes to an instruction on its own transaction. -/
theorem frameInstr_busInput (b : BusInput) : ∃ c, (frameInstr b).busInput = some ⟨b.transaction, c⟩ := by
  obtain ⟨t, answer⟩ := b
  cases answer with
  | none =>
    simp only [frameInstr]
    split
    · exact ⟨none, pathInstr_busInput _ t⟩
    · exact ⟨none, rfl⟩
  | some a =>
    simp only [frameInstr]
    split
    · refine ⟨some a, ?_⟩
      cases hi : statusInstr a t with
      | some i => exact statusInstr_busInput hi
      | none => rfl
    · split
      · exact ⟨none, pathInstr_busInput _ t⟩
      · exact ⟨some a, rfl⟩

/-- The transaction of a decoded instruction is within the decoder's bounds (R3, R51). -/
theorem decode_transaction_wf {w : PortWord} {i : Instr} {b : BusInput} (h : decode w = .ok i)
    (hb : i.busInput = some b) : b.transaction.wf = true := by
  cases w with
  | op bits bus =>
    cases bus with
    | none => cases (decodeBits_busInput h).symm.trans hb
    | some c =>
      simp only [decode, decodeBusOp] at h
      split at h
      · obtain ⟨rfl, hwf, -⟩ := checkBus_ok_inv h
        cases hb
        exact hwf
      · cases h
      · cases h
  | frame c =>
    obtain ⟨rfl, hwf, -⟩ := checkBus_ok_inv h
    obtain ⟨a, ha⟩ := frameInstr_busInput c
    cases ha.symm.trans hb
    exact hwf

end Sys2Proof
end

section
/-!
PROOFS. The state (10_state.md): the invariant of R23, of the buffer and of the watchdog, the history, HALTED, the transfer buffer, and
who writes the encoder's elements.
-/

namespace Sys2Proof.Machine

/-! ### The encoder's invariant (R23) -/

/-- The table's entry is the movement of the phase, modulo 4 (R80). -/
theorem delta_mod_four (p c : Sample) : ((phase p : Int) + delta (keyOf p c)) % 4 = phase c := by
  revert p c
  decide

/-- A sample leaves the accumulator at the phase of the lines, modulo 4 (R23(c)). -/
theorem quadAcc_mod_four {s : State} (h : EncoderInv s) (a b : Bool) :
    (quadAcc a b s).toNat % 4 = phase (sampleOf a b) := by
  obtain ⟨-, -, hacc⟩ := h
  have hmove := delta_mod_four s.prev (sampleOf a b)
  have hwrap := u8_toNat_mod_four (s.acc.toNat + delta (keyOf s.prev (sampleOf a b)))
  unfold quadAcc
  omega

/-- A sample is at a detent exactly when both lines are high (R82). -/
theorem atDetent_quadAcc {s : State} (h : EncoderInv s) (a b : Bool) :
    atDetent (quadAcc a b s) = (a && b) := by
  rw [atDetent, Config.detentStep, quadAcc_mod_four h]
  cases a <;> cases b <;> decide

/-- An iteration of the drain keeps LAST a multiple of 4 (R23(b)). -/
theorem encoderInv_convertDetent {s : State} (h : EncoderInv s) : EncoderInv (convertDetent s) := by
  obtain ⟨hbtn, hlast, hacc⟩ := h
  obtain ⟨-, hs⟩ | ⟨-, hs⟩ | ⟨-, -, hs⟩ := convertDetent_cases s <;> rw [hs] <;> refine ⟨hbtn, ?_, hacc⟩
  · show (s.last - 4#8).toNat % 4 = 0
    bv_omega
  · show (s.last + 4#8).toNat % 4 = 0
    bv_omega
  · exact hlast

theorem encoderInv_reset (src : ResetSource) (s : State) : EncoderInv (resetElements src s) :=
  ⟨by simp, by simp, by simp [phase, Config.prevInit]⟩

/-- Every instruction keeps the encoder's invariant. -/
theorem exec_encoderInv {i : Instr} {s u : State} (hs : EncoderInv s) (h : exec i s = .next u) : EncoderInv u := by
  have ⟨hbtn, hlast, hacc⟩ := hs
  cases leads_of_exec h with
  | transport b hi => rw [exec_transport_next_withEncoderOf hi h]; exact hs
  | quadSample a b => exact ⟨hbtn, hlast, quadAcc_mod_four hs a b⟩
  | btnEdge l =>
    refine ⟨?_, hlast, hacc⟩
    show (if qualifies l then countPress s.btn else s.btn).toNat ≤ 127
    split
    · rw [countPress_toNat]; omega
    · exact hbtn
  | drain => exact hs
  | drainStep => exact encoderInv_convertDetent hs
  | drainClear => exact ⟨by simp, hlast, hacc⟩
  | reset src => exact encoderInv_reset src s

/-! ### The buffer's invariant (R11, R40) -/

/-- Operands within their bounds load a buffer that meets its invariant. -/
theorem bufferInv_loadXfer {t : Transaction} (hlen : t.len ≤ t.cap) (hcap : t.cap ≤ Config.capMax) (s : State) :
    BufferInv (loadXfer t s) :=
  ⟨loadXfer_wf t s, loadXfer_bounded t s, hlen, hcap⟩

/-- The operations of an XFER keep the buffer's form and bounds: the dispatcher writes below `cap - 1`, a reply below `cap`. -/
theorem keptByXfer_bufferInv : KeptByXfer BufferInv where
  request _ h := h
  call given s h := by
    obtain ⟨hwf, hcells, hlen, hcap⟩ := h
    refine ⟨?_, fun c hc => ?_, by simpa using hlen, by simpa using hcap⟩
    · rw [callDispatcher_buf]
      exact Memory.wf_writeList _ hwf 1
    · rw [callDispatcher_buf] at hc
      rw [callDispatcher_cap]
      rcases Memory.mem_writeList _ hc with ⟨h1, h2⟩ | hc
      · simp only [List.length_take, maxReplyLen] at h2
        omega
      · exact hcells c hc
  done s h := by
    obtain ⟨hwf, hcells, -, hcap⟩ := h
    exact ⟨hwf, hcells, Nat.zero_le _, hcap⟩
  reply c r s hr h := by
    obtain ⟨hwf, hcells, -, hcap⟩ := h
    refine ⟨Memory.wf_write (Memory.wf_write hwf 0 c) (r + 1) _, fun d hd => ?_, hr, hcap⟩
    rw [replyWith_cap]
    rcases Memory.mem_write hd with hd | hd
    · omega
    · rcases Memory.mem_write hd with hd | hd
      · omega
      · exact hcells d hd

/-- Every instruction on a bounded transaction keeps the buffer's invariant. -/
theorem exec_bufferInv {i : Instr} {s u : State} (hwf : ∀ b, i.busInput = some b → b.transaction.wf = true)
    (hs : BufferInv s) (h : exec i s = .next u) : BufferInv u := by
  cases leads_of_exec h with
  | transport b hi hm hb hrun =>
    obtain ⟨hcap, -⟩ := (Transaction.wf_iff _).mp (hwf b hb)
    have hload := bufferInv_loadXfer (runPath_next_len_le hrun) hcap s
    exact keptByXfer_bufferInv.of_runPath hrun hload fun _ => hload
  | drainStep => rw [exec_encoder_next_withTransportOf rfl h]; exact hs
  | _ => exact hs

/-! ### The watchdog's invariant (R109) -/

/-- Only arming and a reset change whether the watchdog is armed (R109). -/
theorem watchdogArmed_append (h : List Event) (e : Event) :
    watchdogArmed (h ++ [e]) =
      match e with | .watchdogArm => true | .reset _ => false | _ => watchdogArmed h := by
  cases e <;> simp [watchdogArmed]

/-- Where neither the mode nor the watchdog changes, its invariant is kept. -/
theorem watchdogInv_of_eq {s u : State} (hs : WatchdogInv s) (hmode : u.mode = s.mode)
    (harmed : watchdogArmed u.history = watchdogArmed s.history) : WatchdogInv u := by
  rw [WatchdogInv, hmode, harmed]
  exact hs

/-- The operations of an XFER short of BCAST_RESET leave the watchdog and the mode alone. -/
theorem keptByXfer_watchdogInv : KeptByXfer WatchdogInv where
  request _ h := watchdogInv_of_eq h rfl (watchdogArmed_append _ _)
  call given s h := watchdogInv_of_eq h (callDispatcher_mode s given) (by
    rw [callDispatcher_history, watchdogArmed_append, watchdogArmed_append])
  done _ h := watchdogInv_of_eq h rfl (watchdogArmed_append _ _)
  reply _ _ _ _ h := watchdogInv_of_eq h rfl (watchdogArmed_append _ _)

/-- Every instruction keeps TE halted exactly while the watchdog is armed. -/
theorem exec_watchdogInv {i : Instr} {s u : State} (hs : WatchdogInv s) (h : exec i s = .next u) :
    WatchdogInv u := by
  cases leads_of_exec h with
  | transport b hi hm hb hrun =>
    exact keptByXfer_watchdogInv.of_runPath hrun hs fun _ => watchdogArmed_append _ _
  | quadSample a b =>
    refine watchdogInv_of_eq hs rfl ?_
    show watchdogArmed (if _ then _ else _) = _
    split
    · exact watchdogArmed_append _ _
    · rfl
  | drainStep => exact watchdogInv_of_eq hs (convertDetent_mode s) (by rw [convertDetent_history])
  | drainClear => exact watchdogInv_of_eq hs rfl (watchdogArmed_append _ _)
  | reset src => exact watchdogArmed_append _ _
  | btnEdge l => exact hs
  | drain => exact hs

/-- Every instruction on a bounded transaction keeps the machine's invariant. -/
theorem exec_inv {i : Instr} {s u : State} (hwf : ∀ b, i.busInput = some b → b.transaction.wf = true)
    (hs : Inv s) (h : exec i s = .next u) : Inv u := by
  obtain ⟨henc, hbuf, hdog⟩ := hs
  exact ⟨exec_encoderInv henc h, exec_bufferInv hwf hbuf h, exec_watchdogInv hdog h⟩

/-! ### The history (R19) -/

/-- The operations of an XFER append to the history. -/
theorem keptByXfer_history_extends (h : List Event) : KeptByXfer (fun s => h <+: s.history) where
  request _ hs := hs.trans ⟨_, rfl⟩
  call given s hs := by
    rw [callDispatcher_history, List.append_assoc]
    exact hs.trans ⟨_, rfl⟩
  done _ hs := hs.trans ⟨_, rfl⟩
  reply _ _ _ _ hs := hs.trans ⟨_, rfl⟩

/-- Every instruction appends to the history. -/
theorem exec_history_extends {i : Instr} {s u : State} (h : exec i s = .next u) : s.history <+: u.history := by
  cases leads_of_exec h with
  | transport b hi hm hb hrun =>
    exact (keptByXfer_history_extends s.history).of_runPath hrun ⟨[], List.append_nil _⟩ fun _ => ⟨_, rfl⟩
  | quadSample a b =>
    show s.history <+: if _ then _ else _
    split
    · exact ⟨_, rfl⟩
    · exact ⟨[], List.append_nil _⟩
  | drainStep => simp
  | drainClear => exact ⟨_, rfl⟩
  | reset src => exact ⟨_, rfl⟩
  | btnEdge l => exact ⟨[], List.append_nil _⟩
  | drain => exact ⟨[], List.append_nil _⟩

/-! ### The mode (R10) -/

/-- No operation of an XFER short of BCAST_RESET changes the mode. -/
theorem keptByXfer_mode_eq (m : Mode) : KeptByXfer (fun s => s.mode = m) where
  request _ hs := hs
  call _ _ hs := by simpa using hs
  done _ hs := hs
  reply _ _ _ _ hs := hs

/-! ### Sequences (R53, R83) -/

/-- A sequence that completes completes its first operation, and the others from there. -/
theorem execAll_cons_next {i : Instr} {ops : List Instr} {s u : State} (h : execAll (i :: ops) s = .next u) :
    ∃ v, exec i s = .next v ∧ execAll ops v = .next u := by
  rw [execAll] at h
  split at h
  · exact ⟨_, ‹_›, h⟩
  · cases h
  · cases h

theorem presses_cons (i : Instr) (ops : List Instr) : presses (i :: ops) = presses [i] + presses ops := by
  cases i with
  | btnEdge l => simp [presses]
  | _ => exact (Nat.zero_add _).symm

/-! ### The last transfer buffer (R11) -/

/-- `s` with another transfer buffer left behind by the last XFER. -/
def withBuffer (buf : Memory) (len cap : Nat) (s : State) : State :=
  { s with buf := buf, len := len, cap := cap }

section
variable {s u : State} (buf : Memory) (len cap : Nat)

/-- A path that completes runs on the loaded state, in which nothing of the last buffer is left. -/
theorem runPath_withBuffer {t : Transaction} {given : Option Answer} (h : runPath t given s = .next u) :
    runPath t given (withBuffer buf len cap s) = .next u := by
  unfold runPath at h ⊢
  cases hp : pathOf t with
  | none => simp [hp] at h
  | some p => rw [hp] at h; cases p <;> exact h

theorem xferEndingWith_withBuffer {c : Byte} {t : Transaction} {r : Nat} {region : List Byte}
    (h : xferEndingWith c t r region s = .next u) :
    xferEndingWith c t r region (withBuffer buf len cap s) = .next u := by
  obtain ⟨hm, hends, h⟩ := xferEndingWith_next h
  rw [xferEndingWith, whenRunning_run (s := withBuffer buf len cap s) hm, if_pos hends]
  exact runPath_withBuffer buf len cap h

theorem execXfer_withBuffer {t : Transaction} {answer : Option Answer} (h : execXfer t answer s = .next u) :
    execXfer t answer (withBuffer buf len cap s) = .next u := by
  obtain ⟨hm, h⟩ := whenRunning_next h
  rw [execXfer, whenRunning_run (s := withBuffer buf len cap s) hm]
  exact runPath_withBuffer buf len cap h

/-- A transport instruction that completes gives the same next state from any buffer left behind (R128). -/
theorem exec_transport_withBuffer {i : Instr} (hi : i.isTransport = true) (h : exec i s = .next u) :
    exec i (withBuffer buf len cap s) = .next u := by
  cases i with
  | commandOk => exact xferEndingWith_withBuffer buf len cap h
  | commandFailed => exact xferEndingWith_withBuffer buf len cap h
  | commandNotSupported => exact xferEndingWith_withBuffer buf len cap h
  | invalidTransfer => exact xferEndingWith_withBuffer buf len cap h
  | invalidCrc => exact xferEndingWith_withBuffer buf len cap h
  | invalidArguments => exact xferEndingWith_withBuffer buf len cap h
  | noReply => exact xferEndingWith_withBuffer buf len cap h
  | xfer => exact execXfer_withBuffer buf len cap h
  | quadSample => cases hi
  | btnEdge => cases hi
  | drain => cases hi
  | drainStep => cases hi
  | drainClear => cases hi
  | reset => cases hi
  | reserved111 => cases hi
  | _ => exact h

end

end Sys2Proof.Machine

namespace Sys2Proof

open Sys2Proof.Machine

/-- Settles O7: the decoder bounds the transaction, and every instruction on a bounded transaction keeps the invariant. -/
theorem stepKeepsInvariant : Obligations.StepKeepsInvariant := by
  intro s u hs h
  obtain rfl | ⟨w, rest, i, hw, h⟩ := step_next h
  · exact hs
  · exact exec_inv (fun b hb => decode_transaction_wf hw hb) (s := { s with inputs := rest }) hs h

/-- Settles O8, by the reset values of R120. -/
theorem resetMeetsInvariant : Obligations.ResetMeetsInvariant :=
  ⟨⟨by decide, by decide, by decide⟩, ⟨reset_buf_wf, by decide, by decide, by decide⟩, rfl⟩

/-- Settles O9: the new history extends the old one. -/
theorem historyOnlyGrows : Obligations.HistoryOnlyGrows := by
  intro i s u h
  obtain ⟨events, hev⟩ := exec_history_extends h
  exact ⟨events, hev.symm⟩

/-- Settles O13: RESET POWER_ON from an empty history, by its reset values. -/
theorem initialStateIsAfterPowerOn : Obligations.InitialStateIsAfterPowerOn := by
  intro s hs
  exact ⟨resetElements .powerOn s, rfl, by simp [resetElements, emit, State.reset, hs]⟩

/-- Settles O14: an XFER runs in RUN and only its path BCAST_RESET halts; an encoder operation leaves the mode alone. -/
theorem haltIsEnteredAndLeftOnlyByReset : Obligations.HaltIsEnteredAndLeftOnlyByReset := by
  intro i s u h
  cases leads_of_exec h with
  | transport b hi hm hb hrun =>
    refine ⟨fun hs => (nomatch hm.symm.trans hs), fun _ hu => ⟨b, hb, broadcast_of_pathOf_bcastReset ?_⟩⟩
    by_contra hp
    have hrunning := (keptByXfer_mode_eq .run).of_runPath hrun hm fun hp' => absurd hp' hp
    cases hrunning.symm.trans hu
  | reset src => exact ⟨fun _ _ => ⟨src, rfl⟩, fun _ hu => nomatch hu⟩
  | _ => constructor <;> intro hs hu <;> simp [hs] at hu

/-- Settles O20, below the capacity by the loaded bytes and above it by the bound of R40. -/
theorem loadedBufferHoldsDriversBytes : Obligations.LoadedBufferHoldsDriversBytes := by
  intro t s i
  by_cases hi : i < t.buf.length
  · rw [State.byteAt_of_lt hi, loadXfer_read]
    simp [hi]
  · rw [State.byteAt_of_le (Nat.le_of_not_lt hi), List.getElem?_eq_none (Nat.le_of_not_lt hi)]

/-- Settles O21: an XFER that completes runs on the loaded state. -/
theorem xferIgnoresLastBuffer : Obligations.XferIgnoresLastBuffer :=
  fun _ _ _ buf len cap hi h => exec_transport_withBuffer buf len cap hi h

/-- Settles O41, by the writes of each instruction's next state. -/
theorem encoderElementsHaveTheirWriters : Obligations.EncoderElementsHaveTheirWriters := by
  intro i s u h hreset
  cases leads_of_exec h with
  | transport b hi => rw [exec_transport_next_withEncoderOf hi h]; simp [withEncoderOf]
  | reset src => exact absurd rfl (hreset src)
  | _ => simp

/-- A press counts once; every other operation but DRAIN_CLEAR and RESET leaves the count (R15). -/
theorem exec_btn {i : Instr} {s u : State} (hs : s.btn.toNat ≤ 127) (hclear : i ≠ .drainClear)
    (hreset : ∀ src, i ≠ .reset src) (h : exec i s = .next u) :
    u.btn.toNat = min (s.btn.toNat + presses [i]) 127 := by
  by_cases hedge : ∃ l, i = .btnEdge l
  · obtain ⟨l, rfl⟩ := hedge
    cases (execBtnEdge_eq l s).symm.trans h
    cases l
    · simpa [presses, qualifies] using countPress_toNat s.btn
    · simpa [presses, qualifies] using hs
  · obtain ⟨-, -, hwriter, -⟩ := encoderElementsHaveTheirWriters i s u h hreset
    have hkeep : u.btn = s.btn := by
      by_contra hne
      exact (hwriter hne).elim hclear hedge
    have hnone : presses [i] = 0 := by
      cases i with
      | btnEdge l => exact absurd ⟨l, rfl⟩ hedge
      | _ => rfl
    rw [hkeep, hnone]
    omega

/-- Settles O45: at the rest phase the accumulator is a multiple of 4, by the table's congruence. -/
theorem drainRequestedExactlyAtRest : Obligations.DrainRequestedExactlyAtRest := by
  intro a b s hs
  refine ⟨_, execQuadSample_eq a b s, ?_⟩
  simp [atDetent_quadAcc hs]

/-- Settles O49, by induction on the operations. -/
theorem pressesAccumulateUpToCap : Obligations.PressesAccumulateUpToCap := by
  intro ops
  induction ops with
  | nil =>
    intro s u hs _ h
    cases h
    simp only [presses]
    omega
  | cons i ops ih =>
    intro s u hs hops h
    obtain ⟨hi, hops⟩ := List.forall_mem_cons.mp hops
    obtain ⟨v, hv, h⟩ := execAll_cons_next h
    have hstep := exec_btn hs hi.1 hi.2 hv
    have hrest := ih v u (by omega) hops h
    rw [presses_cons]
    omega

end Sys2Proof
end

section
/-!
PROOFS. Atomic steps (20_memory.md R35, R36): a step is one whole operation, and DRAIN_CLEAR reads and clears the press count in one.
-/

namespace Sys2Proof.Machine

/-- An input that decodes is taken off the inputs and its instruction run (R35). -/
theorem step_of_decode {s : State} {w : PortWord} {rest : List PortWord} {i : Instr} (hin : s.inputs = w :: rest)
    (hw : decode w = .ok i) : step s = exec i { s with inputs := rest } := by
  simp only [step, fetch, hin, hw]

/-- A sequence whose first operation completes goes on from there (R53). -/
theorem execAll_cons_of_next {i : Instr} {ops : List Instr} {s v : State} (h : exec i s = .next v) :
    execAll (i :: ops) s = execAll ops v := by
  simp only [execAll, h]

/-- Two operations that complete, in order (R53). -/
theorem execAll_pair_of_next {i j : Instr} {s v u : State} (hi : exec i s = .next v) (hj : exec j v = .next u) :
    execAll [i, j] s = .next u :=
  (execAll_cons_of_next hi).trans (execAll_cons_of_next hj)

/-- A qualifying edge counts a press (R83). -/
theorem exec_press (s : State) : exec (.btnEdge false) s = .next { s with btn := countPress s.btn } :=
  execBtnEdge_eq false s

/-- From CLEAR, DRAIN_CLEAR always completes (R87). -/
theorem exec_drainClear_of_clear {s : State} (h : s.dph = .clear) :
    exec .drainClear s = .next
      { s with btn := 0x00#8, dph := .idle, history := s.history ++ [.drainResult (drainWord s.btn) (s8 s.ddet)] } := by
  simp only [exec, execDrainClear, h, emit]

/-- A count within its bound has bit 7 zero, and is reported as it is (R52, R87). -/
theorem drainWord_of_le {w : Byte} (h : w.toNat ≤ 127) : drainWord w = w := by
  apply BitVec.eq_of_toNat_eq
  simp only [drainWord, BitVec.toNat_setWidth, BitVec.extractLsb_toNat, Nat.shiftRight_zero]
  omega

/-- A count after a press is reported as it is (R23(a), R83). -/
theorem drainWord_countPress (b : Byte) : drainWord (countPress b) = countPress b :=
  drainWord_of_le (by rw [countPress_toNat]; omega)

end Sys2Proof.Machine

namespace Sys2Proof

open Sys2Proof.Machine

/-- Settles O6: the input is fetched, decoded and run. -/
theorem stepRunsDecodedInstruction : Obligations.StepRunsDecodedInstruction :=
  fun _ _ _ _ hin hw => step_of_decode hin hw

/-- Settles O54: a press before DRAIN_CLEAR is in the count it reports, one after it counts from the cleared 0. -/
theorem pressesAroundClearAreKept : Obligations.PressesAroundClearAreKept := by
  rintro s ⟨hbtn, -, -⟩ hclear
  constructor
  · refine ⟨_, execAll_pair_of_next (exec_press s) (exec_drainClear_of_clear hclear), rfl, ?_⟩
    simp only [drainWord_countPress]
    rfl
  · refine ⟨_, execAll_pair_of_next (exec_drainClear_of_clear hclear) (exec_press _), ?_, ?_⟩
    · show countPress 0x00#8 = 0x01#8
      decide
    · simp only [drainWord_of_le hbtn]
      rfl

end Sys2Proof
end

section
/-!
PROOFS. The decoder and the encoder (30_encoding.md R41, R44, R51): what a frame decodes to, that the decoder inverts the encoder, that
only well-formed instructions are decoded, and the refusal of the reserved selector.
-/

namespace Sys2Proof

/-! ### The frame and status rows (R41, R44) -/

/-- A frame on a path, with no answer, is that path's row. -/
theorem frameInstr_of_pathOf {p : Path} {t : Transaction} (h : pathOf t = some p) :
    frameInstr ⟨t, none⟩ = pathInstr p t := by
  simp only [frameInstr, h]

/-- A frame with an answer it can end with is that status's row. -/
theorem frameInstr_of_endsWithStatus {a : Answer} {t : Transaction} {i : Instr} (h : endsWithStatus a.status t = true)
    (hi : statusInstr a t = some i) : frameInstr ⟨t, some a⟩ = i := by
  simp only [frameInstr, h, hi, if_true, Option.getD_some]

/-- A path's row is well-formed exactly on the transactions of that path. -/
@[simp] theorem pathInstr_wf (p : Path) (t : Transaction) : (pathInstr p t).wf = pathWf p t := by
  cases p <;> rfl

/-- A status's row is well-formed exactly on the transactions that can end with it. -/
theorem statusInstr_wf {a : Answer} {t : Transaction} {i : Instr} (h : statusInstr a t = some i) :
    i.wf = statusWf a.status t a.region := by
  obtain ⟨c, r, region⟩ := a
  unfold statusInstr at h
  split_ifs at h with hc hc hc hc hc hc hc <;> cases h <;> cases hc <;> rfl

/-- XFER is well-formed exactly within the bounds the decoder checks. -/
theorem xfer_wf_iff (t : Transaction) (answer : Option Answer) :
    (Instr.xfer t answer).wf = true ↔ t.wf = true ∧ ∀ a, answer = some a → regionFits a.region t = true := by
  cases answer <;> simp [Instr.wf]

/-- The row of a bounded frame is well-formed: `frameInstr` tests the row's own condition. -/
theorem frameInstr_wf {b : BusInput} (ht : b.transaction.wf = true)
    (ha : ∀ a, b.answer = some a → regionFits a.region b.transaction = true) : (frameInstr b).wf = true := by
  obtain ⟨t, answer⟩ := b
  have hpath {p : Path} (hp : pathOf t = some p) : (pathInstr p t).wf = true := by
    simp only [pathInstr_wf, pathWf, hp, decide_true, Bool.and_true]
    exact ht
  have hxfer : (Instr.xfer t answer).wf = true := (xfer_wf_iff t answer).mpr ⟨ht, ha⟩
  cases answer with
  | none =>
    simp only [frameInstr]
    split
    · exact hpath ‹_›
    · exact hxfer
  | some a =>
    simp only [frameInstr]
    split
    · cases hi : statusInstr a t with
      | none => exact hxfer
      | some i =>
        rw [Option.getD_some, statusInstr_wf hi, statusWf, Bool.and_eq_true, Bool.and_eq_true]
        exact ⟨⟨ht, ha a rfl⟩, ‹_›⟩
    · split
      · exact hpath ‹_›
      · exact hxfer

/-! ### Decoding an encoding -/

/-- The encoding of a frame row decodes to the row. -/
theorem decode_frame_of_pathWf {p : Path} {t : Transaction} (h : pathWf p t = true) :
    decode (.frame ⟨t, none⟩) = .ok (pathInstr p t) := by
  rw [pathWf, Bool.and_eq_true, decide_eq_true_eq] at h
  obtain ⟨ht, hp⟩ := h
  rw [decode, frameInstr_of_pathOf hp]
  exact checkBus_ok _ ht (fun _ ha => nomatch ha)

/-- The encoding of a status row decodes to the row. -/
theorem decode_encodeStatus {c : Byte} {t : Transaction} {r : Nat} {region : List Byte} {i : Instr}
    (h : statusWf c t region = true) (hi : statusInstr ⟨c, r, region⟩ t = some i) :
    decode (encodeStatus c t r region) = .ok i := by
  rw [statusWf, Bool.and_eq_true, Bool.and_eq_true] at h
  obtain ⟨⟨ht, hregion⟩, hends⟩ := h
  rw [encodeStatus, decode, frameInstr_of_endsWithStatus hends hi]
  exact checkBus_ok _ ht (fun a ha => by cases ha; exact hregion)

/-- Settles O1, row by row: a frame row by its path, a status row by its status, a port operation by its pattern. -/
theorem decodeOfEncode : Obligations.DecodeOfEncode := by
  intro i h
  cases i with
  | bcastReset t => exact decode_frame_of_pathWf h
  | bcastResetAddress t => exact decode_frame_of_pathWf h
  | bcastNop t => exact decode_frame_of_pathWf h
  | uNocap t => exact decode_frame_of_pathWf h
  | uShort t => exact decode_frame_of_pathWf h
  | uBadcrc t => exact decode_frame_of_pathWf h
  | unicastRequest t => exact decode_frame_of_pathWf h
  | commandOk t r region => exact decode_encodeStatus h rfl
  | commandFailed t r region => exact decode_encodeStatus h rfl
  | commandNotSupported t r region => exact decode_encodeStatus h rfl
  | invalidTransfer t r region => exact decode_encodeStatus h rfl
  | invalidCrc t r region => exact decode_encodeStatus h rfl
  | invalidArguments t r region => exact decode_encodeStatus h rfl
  | noReply t r region => exact decode_encodeStatus h rfl
  | xfer t answer =>
    obtain ⟨ht, ha⟩ := (xfer_wf_iff t answer).mp h
    exact checkBus_ok (b := ⟨t, answer⟩) _ ht ha
  | reset src => cases src <;> rfl
  | reserved111 => cases h
  | _ => rfl

/-! ### What is decoded -/

/-- The port operations without bus operands carry nothing to bound. -/
theorem decodeBits_wf {bits : List Bool} {i : Instr} (h : decodeBits bits = .ok i) : i.wf = true := by
  unfold decodeBits at h
  split at h <;> cases h <;> rfl

/-- Only XFER takes bus operands, and the decoder checks their bounds. -/
theorem decodeBusOp_wf {b : BusInput} {bits : List Bool} {i : Instr} (h : decodeBusOp b bits = .ok i) :
    i.wf = true := by
  unfold decodeBusOp at h
  split at h
  · obtain ⟨rfl, hwf⟩ := checkBus_ok_inv h
    exact (xfer_wf_iff _ _).mpr hwf
  · cases h
  · cases h

/-- Settles O3, by the three kinds of port word. -/
theorem decodedIsWellFormed : Obligations.DecodedIsWellFormed := by
  intro w i h
  match w with
  | .op bits none => exact decodeBits_wf h
  | .op bits (some b) => exact decodeBusOp_wf h
  | .frame b =>
    obtain ⟨rfl, ht, ha⟩ := checkBus_ok_inv h
    exact frameInstr_wf ht ha

/-- Settles O4: each word is the encoding of its instruction, which is well-formed. -/
theorem wordsOfTheTable : Obligations.WordsOfTheTable :=
  ⟨decodeOfEncode (.quadSample false true) rfl,
   decodeOfEncode (.btnEdge true) rfl,
   decodeOfEncode (.reset .watchdog) rfl,
   decodeOfEncode (.bcastReset ⟨0, [0x06#8, 0x00#8], 2⟩) (by decide),
   decodeOfEncode (.bcastResetAddress ⟨0, [0x04#8], 1⟩) (by decide),
   decodeOfEncode (.unicastRequest ⟨16, [0x01#8, 0x07#8], 2⟩) (by decide +kernel),
   decodeOfEncode (.invalidArguments ⟨16, [0x01#8, 0x07#8], 2⟩ 0 []) (by decide +kernel)⟩

end Sys2Proof

namespace Sys2Proof.Machine

/-- An input that decodes to no operation is refused (R51). -/
theorem step_of_decode_error {s : State} {w : PortWord} {rest : List PortWord} {e : DecodeError}
    (hin : s.inputs = w :: rest) (hw : decode w = .error e) : step s = .refused (refusalOf e) := by
  simp only [step, fetch, hin, hw]

end Sys2Proof.Machine

namespace Sys2Proof

open Sys2Proof.Machine

/-- Settles O5: neither the instruction nor the word reads the state. -/
theorem reservedSelectorHasNoStep : Obligations.ReservedSelectorHasNoStep :=
  fun _ => ⟨rfl, fun _ hin => step_of_decode_error hin rfl⟩

end Sys2Proof
end

section
/-!
PROOFS. A unicast transaction at or above the capacity floor (40_transport.md R68 to R73): the path it takes, the dispatcher's call on the
loaded transaction, and what follows each answer.
-/

namespace Sys2Proof

/-- Settles O18: the register is cleared by its own value, and by no other byte. -/
theorem frameVerifiesIffChecksumAppended : Obligations.FrameVerifiesIffChecksumAppended := by
  intro d c
  have h := (crcByte_injective (crc8 d)).eq_iff (a := c) (b := crc8 d)
  rwa [crcByte_self, ← crc8_append_singleton] at h

/-! ### The path of a unicast (R62) -/

/-- The path of a unicast, by its length and its checksum. -/
theorem pathOf_unicast {t : Transaction} (h : IsUnicast t) :
    pathOf t = some (if t.len < 2 then .uShort else if crc8 t.frame ≠ 0x00#8 then .uBadcrc else .uDispatch) := by
  obtain ⟨haddr, hcap, hlen⟩ := h
  rw [pathOf, if_neg (by omega), if_neg haddr, if_neg (by omega)]
  split_ifs <;> rfl

theorem pathOf_short {t : Transaction} (h : IsUnicast t) (hlen : t.len < 2) : pathOf t = some .uShort := by
  rw [pathOf_unicast h, if_pos hlen]

theorem pathOf_badChecksum {t : Transaction} (h : IsUnicast t) (hlen : 2 ≤ t.len) (hcrc : crc8 t.frame ≠ 0x00#8) :
    pathOf t = some .uBadcrc := by
  rw [pathOf_unicast h, if_neg (by omega), if_pos hcrc]

theorem pathOf_verified {t : Transaction} (h : IsVerified t) : pathOf t = some .uDispatch := by
  obtain ⟨hu, hlen, hcrc⟩ := h
  rw [pathOf_unicast hu, if_neg (by omega), if_neg (not_not_intro hcrc)]

/-- A verified request can end with every status (R44). -/
theorem endsWithStatus_verified {t : Transaction} (h : IsVerified t) (c : Byte) : endsWithStatus c t = true := by
  rw [endsWithStatus, pathOf_verified h]

/-- A frame with its checksum appended, in a buffer with room for it, is a verified request (R43, R61). -/
theorem isVerified_of_checksum {addr : Nat} (haddr : addr ≠ 0) (cmd : Byte) (body tail : List Byte) :
    IsVerified ⟨addr, (cmd :: body) ++ [crc8 (cmd :: body)] ++ tail, ((cmd :: body) ++ [crc8 (cmd :: body)]).length⟩ := by
  refine ⟨⟨haddr, ?_, ?_⟩, ?_, ?_⟩
  · simp only [Transaction.cap, List.length_append, List.length_cons]
    omega
  · simp only [Transaction.cap, List.length_append]
    omega
  · simp
  · rw [Transaction.frame, List.take_left]
    exact (frameVerifiesIffChecksumAppended _ _).mpr rfl

/-! ### The buffer after the dispatcher's writes (R70, R74) -/

@[simp] theorem afterRegion_zero (region : List Byte) (t : Transaction) : afterRegion region t 0 = t.buf[0]? := rfl

theorem afterRegion_of_length_lt {region : List Byte} {t : Transaction} {i : Nat} (h : region.length < i) :
    afterRegion region t i = t.buf[i]? :=
  if_neg (by omega)

/-- The first byte of the frame is that of the buffer. -/
theorem buf_zero_of_frame_head {t : Transaction} {cmd : Byte} (h : t.frame.head? = some cmd) :
    t.buf[0]? = some cmd := by
  rw [Transaction.frame, List.head?_take] at h
  split at h
  · cases h
  · rwa [← List.head?_eq_getElem?]

end Sys2Proof

namespace Sys2Proof.Machine

section
variable {t : Transaction} {s : State}

/-! ### XFER on the paths that reply, and the status rows (log 17) -/

/-- A status row, on a transaction that can end with its status, is the XFER answered with it. -/
theorem xferEndingWith_eq_execXfer {c : Byte} (h : endsWithStatus c t = true) (r : Nat) (region : List Byte)
    (s : State) : xferEndingWith c t r region s = execXfer t (some ⟨c, r, region⟩) s := by
  rw [xferEndingWith, if_pos h, execXfer]

/-- An XFER in RUN on the path U_SHORT is answered with INVALID_TRANSFER (R68). -/
theorem execXfer_short (hm : s.mode = .run) (hp : pathOf t = some .uShort) (answer : Option Answer) :
    execXfer t answer s = .next (replyWith 0x03#8 0 (loadXfer t s)) := by
  rw [execXfer, whenRunning_run hm, runPath, hp]
  rfl

/-- An XFER in RUN on the path U_BADCRC is answered with INVALID_CRC (R69). -/
theorem execXfer_badChecksum (hm : s.mode = .run) (hp : pathOf t = some .uBadcrc) (answer : Option Answer) :
    execXfer t answer s = .next (replyWith 0x04#8 0 (loadXfer t s)) := by
  rw [execXfer, whenRunning_run hm, runPath, hp]
  rfl

/-- An XFER in RUN of a verified request calls the dispatcher, and goes by its answer (R70). -/
theorem execXfer_verified (hm : s.mode = .run) (ht : IsVerified t) (answer : Option Answer) :
    execXfer t answer s = afterDispatch (answerOf answer (loadXfer t s)).status
      (answerOf answer (loadXfer t s)).replyLen (callDispatcher answer (loadXfer t s)) := by
  rw [execXfer, whenRunning_run hm, runPath, pathOf_verified ht]
  rfl

/-- A status row that TE answers itself: the status, its checksum and no dispatcher event (R68, R69, R101). -/
theorem statusRow_without_call {c d : Byte} (hends : endsWithStatus c t = true)
    (hxfer : ∀ answer, execXfer t answer s = .next (replyWith c 0 (loadXfer t s))) (hd : crc8 [c] = d) (r : Nat)
    (region : List Byte) : ∃ u, xferEndingWith c t r region s = .next u ∧ u.wire = [c, d] ∧
      u.history = s.history ++ [.xferDone 2] := by
  refine ⟨_, (xferEndingWith_eq_execXfer hends r region s).trans (hxfer _), ?_, rfl⟩
  rw [← hd]
  exact replyWith_wire c 0 (loadXfer_wf t s)

/-! ### The dispatcher's call (R70) -/

/-- The dispatcher's writes keep the canonical form. -/
theorem callDispatcher_wf (given : Option Answer) (h : s.buf.wf) : (callDispatcher given s).buf.wf := by
  rw [callDispatcher_buf]
  exact Memory.wf_writeList _ h 1

/-- The dispatcher may write `cap - 2` bytes of the buffer. -/
@[simp] theorem maxReplyLen_callDispatcher (given : Option Answer) :
    maxReplyLen (callDispatcher given (loadXfer t s)) = t.cap - 2 := by
  rw [maxReplyLen, callDispatcher_cap, loadXfer_cap]

/-- The dispatcher's call on the loaded transaction, element by element. -/
theorem callDispatcher_loadXfer_eq {a : Answer} {cmd : Byte} (h : t.frame.head? = some cmd) :
    callDispatcher (some a) (loadXfer t s) = { s with
      buf := (callDispatcher (some a) (loadXfer t s)).buf
      len := t.len
      cap := t.cap
      history := s.history ++
        [.dispatchCall cmd (t.len - 2) (t.cap - 2), .dispatchAnswer a.status a.replyLen] } := by
  have hcmd : commandByte (loadXfer t s) = cmd := by
    rw [commandByte, loadXfer_read, List.getD_eq_getElem?_getD, buf_zero_of_frame_head h, Option.getD_some]
  have hhist : (callDispatcher (some a) (loadXfer t s)).history = s.history ++
      [.dispatchCall cmd (t.len - 2) (t.cap - 2), .dispatchAnswer a.status a.replyLen] := by
    rw [callDispatcher_history, hcmd, List.append_assoc]
    rfl
  rw [← hhist]
  rfl

/-- A read after the dispatcher's call: its region, cut to what it may write, and the loaded byte elsewhere. -/
theorem callDispatcher_loadXfer_read (a : Answer) (i : Nat) :
    (callDispatcher (some a) (loadXfer t s)).buf.read i =
      if 1 ≤ i ∧ i ≤ (a.region.take (t.cap - 2)).length then (a.region.take (t.cap - 2)).getD (i - 1) Memory.blank
      else (loadXfer t s).buf.read i := by
  rw [callDispatcher_buf, Memory.read_writeList _ (loadXfer_wf t s)]
  exact if_congr (and_congr_right' Nat.lt_one_add_iff) rfl rfl

/-- What the buffer holds after the dispatcher's call: its region, cut to what it may write, and the driver's bytes elsewhere. -/
theorem callDispatcher_loadXfer_byteAt (a : Answer) (i : Nat) :
    (callDispatcher (some a) (loadXfer t s)).byteAt i = afterRegion (a.region.take (t.cap - 2)) t i := by
  by_cases hr : 1 ≤ i ∧ i ≤ (a.region.take (t.cap - 2)).length
  · have hlen := List.length_take_le (t.cap - 2) a.region
    have hi : i < (callDispatcher (some a) (loadXfer t s)).cap := by
      rw [callDispatcher_cap, loadXfer_cap]
      omega
    rw [State.byteAt_of_lt hi, callDispatcher_loadXfer_read, if_pos hr, afterRegion, if_pos hr,
      List.getD_eq_getElem _ _ (by omega), List.getElem?_eq_getElem (by omega)]
  · rw [State.byteAt, callDispatcher_cap, callDispatcher_loadXfer_read, if_neg hr, ← State.byteAt,
      loadedBufferHoldsDriversBytes, afterRegion, if_neg hr]

/-- The dispatcher's call leaves what its two faults carry (R104). -/
theorem calledDispatcher_callDispatcher (a : Answer) {cmd : Byte} (h : t.frame.head? = some cmd) (s : State) :
    CalledDispatcher t a cmd s (callDispatcher (some a) (loadXfer t s)) :=
  ⟨callDispatcher_loadXfer_eq h, callDispatcher_loadXfer_byteAt a⟩

/-! ### After the dispatcher's answer (R70, R71, R72, R104) -/

/-- A suppressed reply. -/
theorem afterDispatch_noReply (r : Nat) (s : State) : afterDispatch 0xFF#8 r s = .next (completeXfer 0 s) :=
  if_pos rfl

/-- A reply that fits. -/
theorem afterDispatch_reply {c : Byte} {r : Nat} (hc : c.toNat ≤ 0x05) (hr : r ≤ maxReplyLen s) :
    afterDispatch c r s = .next (replyWith c r s) := by
  rw [afterDispatch, if_neg (by rintro rfl; exact absurd hc (by decide)), if_neg (by simp [statusDefined, hc]),
    if_neg (by omega)]

/-- A status outside the enumeration of R44. -/
theorem afterDispatch_badStatus {c : Byte} {r : Nat} (hc : 0x05 < c.toNat) (hne : c ≠ 0xFF#8) :
    afterDispatch c r s = .fault (.dispatcherBadStatus s) := by
  rw [afterDispatch, if_neg hne, if_pos (by simp [statusDefined, hc, hne])]

/-- A reply that does not fit. -/
theorem afterDispatch_overrun {c : Byte} {r : Nat} (hc : c.toNat ≤ 0x05) (hr : maxReplyLen s < r) :
    afterDispatch c r s = .fault (.dispatcherOverrun s) := by
  rw [afterDispatch, if_neg (by rintro rfl; exact absurd hc (by decide)), if_neg (by simp [statusDefined, hc]),
    if_pos hr]

/-- An answer that keeps the dispatcher's contract (R76): no reply, or one that fits. -/
theorem keepsContract_cases {a : Answer} (h : a.keepsContract t = true) :
    a.status = 0xFF#8 ∨ (a.status.toNat ≤ 0x05 ∧ a.replyLen ≤ t.cap - 2) := by
  simp only [Answer.keepsContract, statusDefined, Bool.and_eq_true, Bool.or_eq_true, decide_eq_true_eq,
    beq_iff_eq] at h
  rw [Transaction.maxReply] at h
  tauto

/-- After an answer that keeps the contract, XFER completes (R62). -/
theorem afterDispatch_of_keepsContract {a : Answer} (h : a.keepsContract t = true) (hcap : maxReplyLen s = t.cap - 2) :
    ∃ u n, afterDispatch a.status a.replyLen s = .next u ∧ u.history = s.history ++ [.xferDone n] := by
  obtain hc | ⟨hc, hr⟩ := keepsContract_cases h
  · exact ⟨_, 0, hc ▸ afterDispatch_noReply _ s, rfl⟩
  · exact ⟨_, a.replyLen + 2, afterDispatch_reply hc (by omega), rfl⟩

/-- A verified request, answered with a status but NO_REPLY and a reply that fits, is replied to with that status, whether as the row of
the status or as XFER (R44, R72, R79). -/
theorem statusRow_relays (hm : s.mode = .run) (ht : IsVerified t) {c : Byte} (hc : c.toNat ≤ 0x05) {r : Nat}
    (hr : r ≤ t.cap - 2) (region : List Byte) :
    ∃ u, xferEndingWith c t r region s = .next u ∧ exec (.xfer t (some ⟨c, r, region⟩)) s = .next u ∧
      u.wire.head? = some c ∧ u.wire.length = r + 2 ∧ crc8 u.wire = 0x00#8 := by
  have hxfer : execXfer t (some ⟨c, r, region⟩) s =
      .next (replyWith c r (callDispatcher (some ⟨c, r, region⟩) (loadXfer t s))) := by
    rw [execXfer_verified hm ht]
    exact afterDispatch_reply hc (hr.trans_eq (maxReplyLen_callDispatcher _).symm)
  have hwf := callDispatcher_wf (some ⟨c, r, region⟩) (loadXfer_wf t s)
  refine ⟨_, ?_, hxfer, ?_, ?_, replyWith_crc c r hwf⟩
  · rw [xferEndingWith_eq_execXfer (endsWithStatus_verified ht c), hxfer]
  · rw [replyWith_wire c r hwf]
    rfl
  · rw [State.wire, Memory.length_readList, replyWith_len]

end

end Sys2Proof.Machine

namespace Sys2Proof

open Sys2Proof.Machine

/-- Settles O31: `statusRow_relays` for each of the six statuses. -/
theorem statusRowsRelayTheirStatus : Obligations.StatusRowsRelayTheirStatus := by
  intro t r region s hm ht hr _
  simp only [List.forall_mem_cons, List.not_mem_nil, false_implies, implies_true, and_true]
  have hrow {c : Byte} (hc : c.toNat ≤ 0x05) := statusRow_relays hm ht hc hr region
  exact ⟨hrow (by decide), hrow (by decide), hrow (by decide), hrow (by decide), hrow (by decide), hrow (by decide)⟩

/-- Settles O32: on the paths U_SHORT and U_BADCRC the row is the XFER that TE answers itself. -/
theorem transportStatusesAreProducedByTransport : Obligations.TransportStatusesAreProducedByTransport := by
  intro t r region s hm ht
  constructor
  · intro hlen
    have hp := pathOf_short ht hlen
    exact statusRow_without_call (by simp [endsWithStatus, hp]) (execXfer_short hm hp) (by decide) r region
  · intro hlen hcrc
    have hp := pathOf_badChecksum ht hlen hcrc
    exact statusRow_without_call (by simp [endsWithStatus, hp]) (execXfer_badChecksum hm hp) (by decide) r region

/-- Settles O34: the frame verifies, so the dispatcher is called with its first byte, and the XFER completes after the answer. -/
theorem everyCommandReachesDispatcher : Obligations.EveryCommandReachesDispatcher := by
  intro addr cmd body tail a s hm haddr frame t ha
  have ht : IsVerified t := isVerified_of_checksum haddr cmd body tail
  have hcmd : t.frame.head? = some cmd := by simp [t, frame, Transaction.frame]
  have hlen : t.len - 2 = body.length := by simp [t, frame]
  have hcap : t.cap - 2 = body.length + tail.length := by
    simp only [t, frame, Transaction.cap, List.length_append, List.length_cons, List.length_nil]
    omega
  obtain ⟨u, n, hu, hhist⟩ := afterDispatch_of_keepsContract ha
    (maxReplyLen_callDispatcher (t := t) (s := s) (some a))
  refine ⟨u, [.xferDone n], (execXfer_verified hm ht _).trans hu, ?_⟩
  rw [hhist, callDispatcher_loadXfer_eq hcmd, hlen, hcap, List.append_assoc]
  rfl

/-- Settles O36: both faults carry the state after the dispatcher's call, whose region reaches neither index 0 nor the last byte. -/
theorem dispatcherBreachFaults : Obligations.DispatcherBreachFaults := by
  intro t a cmd s hm ht hcmd
  have hxfer : exec (.xfer t (some a)) s = _ := execXfer_verified hm ht (some a)
  have hcalled := calledDispatcher_callDispatcher a hcmd s
  have hbytes := callDispatcher_loadXfer_byteAt (t := t) (s := s) a
  have hfirst := (hbytes 0).trans (buf_zero_of_frame_head hcmd)
  have hlast := (hbytes (t.cap - 1)).trans (afterRegion_of_length_lt (by
    obtain ⟨⟨-, hcap, -⟩, -⟩ := ht
    have := List.length_take_le (t.cap - 2) a.region
    omega))
  constructor
  · intro hc hne
    exact ⟨_, hxfer.trans (afterDispatch_badStatus hc hne), hcalled, hfirst, hlast⟩
  · intro hc hr
    exact ⟨_, hxfer.trans (afterDispatch_overrun hc ((maxReplyLen_callDispatcher _).trans_lt hr)), hcalled, hfirst, hlast⟩

end Sys2Proof
end

section
/-!
PROOFS. DRAIN_CLEAR (41_encoder.md R87): the word it reports, and its refusal outside CLEAR.
-/

namespace Sys2Proof.Machine

/-- The reported word is the count with bit 7 masked (R52). -/
theorem drainWord_eq_and (w : Byte) : drainWord w = w &&& 0x7F#8 := by
  apply BitVec.eq_of_toNat_eq
  have hmask : w.toNat &&& 127 = w.toNat % 2 ^ 7 := Nat.and_two_pow_sub_one_eq_mod w.toNat 7
  simp only [drainWord, BitVec.toNat_setWidth, BitVec.extractLsb_toNat, Nat.shiftRight_zero, BitVec.toNat_and,
    BitVec.toNat_ofNat, Nat.reducePow, Nat.reduceMod, hmask]
  omega

/-- Outside CLEAR, DRAIN_CLEAR has no step (R87). -/
theorem exec_drainClear_of_ne_clear {s : State} (h : s.dph ≠ .clear) :
    exec .drainClear s = .refused .drainNotAtClear := by
  cases hd : s.dph with
  | clear => exact absurd hd h
  | idle => simp only [exec, execDrainClear, hd]
  | loop => simp only [exec, execDrainClear, hd]

end Sys2Proof.Machine

namespace Sys2Proof

open Sys2Proof.Machine

/-- Settles O53, by the two cases of the drain's phase. -/
theorem drainClearReportsAndClears : Obligations.DrainClearReportsAndClears :=
  fun s => ⟨fun h => drainWord_eq_and s.btn ▸ exec_drainClear_of_clear h, exec_drainClear_of_ne_clear⟩

end Sys2Proof
end

section
/-!
PROOFS. XFER and its rows (40_transport.md R62): which path a transaction takes, a frame or status row as the XFER it stands for, and when
an operation has a step.
-/

namespace Sys2Proof

open Sys2Proof.Machine

/-! ### The path of a broadcast, and of a unicast below the capacity floor (R62) -/

/-- The broadcast path, by the first byte if there is one (R45, R63). -/
theorem broadcastPath_eq (f : List Byte) :
    broadcastPath f = if f.head? = some 0x06#8 then .bcastReset
      else if f.head? = some 0x04#8 then .bcastResetAddress else .bcastNop := by
  cases f with
  | nil => rfl
  | cons b f => simp only [broadcastPath, List.head?_cons, Option.some.injEq]

theorem pathOf_broadcast {t : Transaction} (h : IsBroadcast t) : pathOf t = some (broadcastPath t.frame) := by
  obtain ⟨haddr, hlen⟩ := h
  rw [pathOf, if_neg (by omega), if_pos haddr]

theorem pathOf_bcastReset {t : Transaction} (h : IsBroadcast t) (hb : t.frame.head? = some 0x06#8) :
    pathOf t = some .bcastReset := by
  rw [pathOf_broadcast h, broadcastPath_eq, if_pos hb]

theorem pathOf_bcastResetAddress {t : Transaction} (h : IsBroadcast t) (hb : t.frame.head? = some 0x04#8) :
    pathOf t = some .bcastResetAddress := by
  rw [pathOf_broadcast h, broadcastPath_eq, hb]
  rfl

theorem pathOf_bcastNop {t : Transaction} (h : IsBroadcast t) (h4 : t.frame.head? ≠ some 0x04#8)
    (h6 : t.frame.head? ≠ some 0x06#8) : pathOf t = some .bcastNop := by
  rw [pathOf_broadcast h, broadcastPath_eq, if_neg h6, if_neg h4]

theorem pathOf_noCapacity {t : Transaction} (haddr : t.addr ≠ 0) (hcap : t.cap < 2) (hlen : t.len ≤ t.cap) :
    pathOf t = some .uNocap := by
  rw [pathOf, if_neg (by omega), if_neg haddr, if_pos hcap]

/-- Only a transaction longer than its buffer has no path (R77). -/
theorem pathOf_eq_none_iff {t : Transaction} : pathOf t = none ↔ t.cap < t.len := by
  unfold pathOf
  split_ifs <;> simp_all

/-- Only verified requests reach the dispatcher (R62, R70). -/
theorem isVerified_of_pathOf {t : Transaction} (h : pathOf t = some .uDispatch) : IsVerified t := by
  obtain ⟨hlen, -⟩ := pathOf_eq_some h
  have hcap := two_le_cap_of_pathOf h (by simp)
  have haddr : t.addr ≠ 0 := by
    intro haddr
    rw [pathOf_broadcast ⟨haddr, hlen⟩, broadcastPath_eq] at h
    split_ifs at h <;> cases h
  have hu : IsUnicast t := ⟨haddr, hcap, hlen⟩
  rw [pathOf_unicast hu] at h
  split_ifs at h with hshort hcrc
  · cases h
  · cases h
  · exact ⟨hu, by omega, not_not.mp hcrc⟩

end Sys2Proof

namespace Sys2Proof.Machine

/-! ### A row as the XFER it stands for (log 17) -/

/-- The dispatcher's answer is read on the path U_DISPATCH only (R62, R70). -/
theorem runPath_answer {t : Transaction} (h : pathOf t ≠ some .uDispatch) (a b : Option Answer) (s : State) :
    runPath t a s = runPath t b s := by
  unfold runPath
  cases hp : pathOf t with
  | none => rfl
  | some p =>
    cases p with
    | uDispatch => exact absurd hp h
    | _ => rfl

/-- A frame row, on a transaction of its path, is the XFER of that transaction, in every state. Only the dispatcher's path reads an
answer, and its row leaves the answer free. -/
theorem exec_xfer_eq_pathInstr {p : Path} {t : Transaction} (hp : pathOf t = some p) {answer : Option Answer}
    (ha : p = .uDispatch → answer = none) (s : State) : exec (.xfer t answer) s = exec (pathInstr p t) s := by
  have hrow : exec (pathInstr p t) s = whenRunning s (runPath t none s) := by
    cases p <;> simp only [pathInstr, exec, execBcastReset, execBcastResetAddress, execBcastNop, execUNocap, execUShort,
      execUBadcrc, execUnicastRequest, onPath, runPath, hp, if_true]
  have hanswer : runPath t answer s = runPath t none s := by
    by_cases hd : p = .uDispatch
    · rw [ha hd]
    · exact runPath_answer (by simpa [hp] using hd) answer none s
  rw [hrow, ← hanswer]
  rfl

/-- A status's row is the XFER that ends with that status. -/
theorem exec_statusInstr {a : Answer} {t : Transaction} {i : Instr} (h : statusInstr a t = some i) (s : State) :
    exec i s = xferEndingWith a.status t a.replyLen a.region s := by
  obtain ⟨c, r, region⟩ := a
  unfold statusInstr at h
  split_ifs at h with hc hc hc hc hc hc hc <;> cases h <;> cases hc <;> rfl

end Sys2Proof.Machine

namespace Sys2Proof

open Sys2Proof.Machine

/-- Settles O37: a frame row is the XFER on its path, a status row the XFER that ends with its status. -/
theorem xferIsItsRow : Obligations.XferIsItsRow := by
  rintro ⟨t, answer⟩ s
  cases answer with
  | none =>
    simp only [frameInstr]
    split
    · exact exec_xfer_eq_pathInstr ‹_› (fun _ => rfl) s
    · rfl
  | some a =>
    simp only [frameInstr]
    split
    · cases hi : statusInstr a t with
      | none => rfl
      | some i => exact ((exec_statusInstr hi s).trans (xferEndingWith_eq_execXfer ‹_› _ _ s)).symm
    · rename_i hends
      split
      · refine exec_xfer_eq_pathInstr ‹_› (fun hd => absurd ?_ hends) s
        subst hd
        rw [endsWithStatus, ‹pathOf t = _›]
      · rfl

end Sys2Proof

namespace Sys2Proof.Machine

/-! ### When an operation has a step (R62, R114) -/

/-- Every transport instruction is XFER, or the row of the frame it encodes to. -/
theorem transport_cases {i : Instr} (hi : i.isTransport = true) :
    ∃ b, i.busInput = some b ∧ (i = .xfer b.transaction b.answer ∨ encode i = .frame b) := by
  cases i with
  | xfer t answer => exact ⟨⟨t, answer⟩, rfl, .inl rfl⟩
  | quadSample | btnEdge | drain | drainStep | drainClear | reset | reserved111 => cases hi
  | _ => exact ⟨_, rfl, .inr rfl⟩

/-- A well-formed transport instruction is the XFER of the transaction it carries: a row is what its own encoding decodes to. -/
theorem exec_transport_eq_execXfer {i : Instr} (hi : i.isTransport = true) (hwf : i.wf = true) :
    ∃ b, i.busInput = some b ∧ ∀ s, exec i s = execXfer b.transaction b.answer s := by
  obtain ⟨b, hb, rfl | henc⟩ := transport_cases hi
  · exact ⟨b, hb, fun _ => rfl⟩
  · have hdec := decodeOfEncode i hwf
    rw [henc] at hdec
    obtain ⟨rfl, -⟩ := checkBus_ok_inv hdec
    exact ⟨b, hb, fun s => (xferIsItsRow b s).symm⟩

/-- A free answer keeps the dispatcher's contract (R76; log 4). -/
theorem freeAnswer_keepsContract (t : Transaction) (s : State) :
    (freeAnswer (loadXfer t s)).keepsContract t = true := by
  have hstatus (k : Fin 7) : statusDefined (statusCode k) = true := by
    revert k
    decide
  have hlen (n : Nat) : n % (maxReplyLen (loadXfer t s) + 1) ≤ t.maxReply := Nat.lt_succ_iff.mp (Nat.mod_lt _ (by omega))
  simp only [Answer.keepsContract, freeAnswer, hstatus, Bool.true_and, Bool.or_eq_true, beq_iff_eq]
  split
  · exact .inl ‹_›
  · exact .inr (decide_eq_true (hlen _))

/-- The answer of an XFER whose dispatcher keeps its contract where the environment fixes the answer. -/
theorem answerOf_keepsContract {t : Transaction} {answer : Option Answer}
    (h : answer.all (·.keepsContract t) = true) (s : State) : (answerOf answer (loadXfer t s)).keepsContract t = true := by
  cases answer with
  | none => exact freeAnswer_keepsContract t s
  | some a => exact h

/-- While the bus driver and the dispatcher keep their duties, an XFER in RUN completes or halts (R62, R114). -/
theorem execXfer_next_of_keepsDuties {b : BusInput} (h : b.keepsDuties = true) {s : State} (hm : s.mode = .run) :
    ∃ u, execXfer b.transaction b.answer s = .next u := by
  obtain ⟨t, answer⟩ := b
  simp only [BusInput.keepsDuties, Bool.and_eq_true, decide_eq_true_eq] at h
  obtain ⟨hlen, hanswer⟩ := h
  rw [execXfer, whenRunning_run hm, runPath]
  cases hp : pathOf t with
  | none => exact absurd (pathOf_eq_none_iff.mp hp) (by omega)
  | some p =>
    cases p with
    | uDispatch =>
      obtain ⟨u, n, hu, -⟩ := afterDispatch_of_keepsContract (answerOf_keepsContract hanswer s)
        (maxReplyLen_callDispatcher (t := t) (s := s) answer)
      exact ⟨u, hu⟩
    | _ => exact ⟨_, rfl⟩

/-- The enabling condition of every transport instruction is R62's. -/
theorem transport_enabled {i : Instr} (hi : i.isTransport = true) (s : State) :
    i.enabled s = decide (s.mode = .run) := by
  cases i with
  | quadSample | btnEdge | drain | drainStep | drainClear | reset | reserved111 => cases hi
  | _ => rfl

/-- What leads to a next state is enabled (R62, R85, R86, R87, R121). -/
theorem Leads.enabled {s u : State} {i : Instr} (h : Leads s i u) : i.enabled s = true := by
  cases h with
  | transport b hi hm => rw [transport_enabled hi, hm]; rfl
  | quadSample => rfl
  | btnEdge => rfl
  | drain hd => exact decide_eq_true hd
  | drainStep hd => exact decide_eq_true hd
  | drainClear hd => exact decide_eq_true hd
  | reset src hs =>
    cases src with
    | powerOn => rfl
    | watchdog => exact decide_eq_true (hs.resolve_left (by simp))

/-- A transport instruction that is well-formed steps in RUN, while its collaborators keep their duties (R62, R114). -/
theorem exec_transport_of_enabled {i : Instr} {s : State} (hi : i.isTransport = true) (hwf : i.wf = true)
    (hduties : i.keepsDuties = true) (h : i.enabled s = true) : ∃ u, exec i s = .next u := by
  obtain ⟨b, hb, heq⟩ := exec_transport_eq_execXfer hi hwf
  rw [transport_enabled hi, decide_eq_true_eq] at h
  rw [Instr.keepsDuties, hb, Option.all_some] at hduties
  rw [heq]
  exact execXfer_next_of_keepsDuties hduties h

/-- An operation of the encoder engine, or a reset, steps where it is enabled (R81 to R87, R121). -/
theorem exec_of_enabled_of_not_transport {i : Instr} {s : State} (hi : i.isTransport = false) (h : i.enabled s = true) :
    ∃ u, exec i s = .next u := by
  cases i with
  | quadSample a b => exact ⟨_, execQuadSample_eq a b s⟩
  | btnEdge l => exact ⟨_, execBtnEdge_eq l s⟩
  | drain =>
    have hd : s.dph = .idle := of_decide_eq_true h
    exact ⟨_, by rw [exec, execDrain, hd]⟩
  | drainStep =>
    have hd : s.dph = .loop := of_decide_eq_true h
    exact ⟨_, by rw [exec, execDrainStep, hd]⟩
  | drainClear => exact ⟨_, exec_drainClear_of_clear (of_decide_eq_true h)⟩
  | reset src =>
    cases src with
    | powerOn => exact ⟨_, rfl⟩
    | watchdog =>
      have hm : s.mode = .halted := of_decide_eq_true h
      exact ⟨resetElements .watchdog s, by simp only [exec, execReset, hm]⟩
  | reserved111 => cases h
  | _ => cases hi

end Sys2Proof.Machine

namespace Sys2Proof

open Sys2Proof.Machine

/-- Settles O10: a next state is one of those of `Leads`, whose conditions are the rules'; an enabled operation completes. -/
theorem stepsExactlyWhenEnabled : Obligations.StepsExactlyWhenEnabled := by
  intro i s hwf hduties
  refine ⟨fun ⟨_, hu⟩ => (leads_of_exec hu).enabled, fun h => ?_⟩
  cases hi : i.isTransport with
  | true => exact exec_transport_of_enabled hi hwf hduties h
  | false => exact exec_of_enabled_of_not_transport hi h

/-- Settles O15: every transport instruction runs only in RUN. -/
theorem noXferWhileHalted : Obligations.NoXferWhileHalted := by
  intro i s hi hm
  cases i with
  | quadSample | btnEdge | drain | drainStep | drainClear | reset | reserved111 => cases hi
  | _ => exact whenRunning_halted hm

/-- Settles O35: such a transaction has no path. -/
theorem lenAboveCapFaults : Obligations.LenAboveCapFaults := by
  intro t answer s hm hlen
  rw [exec, execXfer, whenRunning_run hm, runPath, pathOf_eq_none_iff.mpr hlen]

end Sys2Proof
end

section
/-!
PROOFS. The paths that reply nothing (40_transport.md R64 to R67): the three broadcasts, on one device and on a bus of several, and
a unicast below the capacity floor. Each answer is the row's path on the loaded state, and the row is the XFER.
-/

namespace Sys2Proof

open Sys2Proof.Machine

/-- Settles O22, on the path BCAST_RESET. -/
theorem broadcastResetHalts : Obligations.BroadcastResetHalts := by
  intro t answer s hm ht hb
  have hp := pathOf_bcastReset ht hb
  exact ⟨onPath_eq _ hm hp, exec_xfer_eq_pathInstr hp (fun h => nomatch h) s⟩

/-- Settles O23, on the path BCAST_RESET_ADDRESS. -/
theorem broadcastResetAddressCallsCollaborator : Obligations.BroadcastResetAddressCallsCollaborator := by
  intro t answer s hm ht hb
  have hp := pathOf_bcastResetAddress ht hb
  refine ⟨(onPath_eq _ hm hp).trans ?_, exec_xfer_eq_pathInstr hp (fun h => nomatch h) s⟩
  simp [pathBcastResetAddress, completeXfer, emit]

/-- Settles O24, on the path BCAST_NOP. -/
theorem broadcastNopIsSilent : Obligations.BroadcastNopIsSilent := by
  intro t answer s hm ht h4 h6
  have hp := pathOf_bcastNop ht h4 h6
  exact ⟨onPath_eq _ hm hp, exec_xfer_eq_pathInstr hp (fun h => nomatch h) s⟩

/-- Settles O25: each device runs the broadcast RESET as its own XFER. -/
theorem broadcastResetReachesEveryDevice : Obligations.BroadcastResetReachesEveryDevice := by
  intro t devices ht hb hm
  refine List.map_congr_left fun d hd => ?_
  obtain ⟨hrow, hxfer⟩ := broadcastResetHalts t none d (hm d hd) ht hb
  exact hxfer.trans hrow

/-- Settles O26, on the path U_NOCAP, which is tried before the length (R62). -/
theorem noCapacityNoReply : Obligations.NoCapacityNoReply := by
  intro t answer s hm haddr hcap hlen
  have hp := pathOf_noCapacity haddr hcap hlen
  exact ⟨onPath_eq _ hm hp, exec_xfer_eq_pathInstr hp (fun h => nomatch h) s⟩

end Sys2Proof
end

section
/-!
PROOFS. The checksum of a corrupted frame (40_transport.md R60), and the two error replies that TE writes itself (R68, R69).
-/

namespace Sys2Proof

/-- Settles O17, by running the register. -/
theorem crcCheckValues : Obligations.CrcCheckValues := by
  unfold Obligations.CrcCheckValues
  decide +kernel

/-! ### One byte changed (R60) -/

/-- The checksum of a frame, from one of its bytes on. -/
theorem crc8_append_cons (x y : List Byte) (b : Byte) :
    crc8 (x ++ b :: y) = y.foldl crcByte (crcByte (crc8 x) b) := by
  simp [crc8, Config.crcXorOut]

/-- Different registers stay different, whatever bytes follow. -/
theorem foldl_crcByte_injective (y : List Byte) : Function.Injective fun c => y.foldl crcByte c := by
  induction y with
  | nil => exact Function.injective_id
  | cons b y ih =>
    intro c d h
    have hstep : crcByte c b = crcByte d b := ih h
    rw [crcByte_comm c, crcByte_comm d] at hstep
    exact crcByte_injective b hstep

/-- A changed byte changes the checksum. -/
theorem crc8_ne_of_byte_ne (x y : List Byte) {b b' : Byte} (h : b ≠ b') : crc8 (x ++ b :: y) ≠ crc8 (x ++ b' :: y) := by
  rw [crc8_append_cons, crc8_append_cons]
  exact fun heq => h (crcByte_injective _ (foldl_crcByte_injective y heq))

end Sys2Proof

namespace Sys2Proof.Machine

/-! ### A reply read byte by byte (R68, R69, R72, R73) -/

section
variable {s : State} (c : Byte) (r : Nat)

theorem replyWith_byteAt_zero (h : s.buf.wf) (hcap : 0 < s.cap) : (replyWith c r s).byteAt 0 = some c := by
  rw [State.byteAt_of_lt (s := replyWith c r s) hcap, replyWith_read c r h, if_neg (by omega), if_pos rfl]

theorem replyWith_byteAt_checksum (h : s.buf.wf) (hcap : r + 1 < s.cap) :
    (replyWith c r s).byteAt (r + 1) = some (crc8 (c :: s.buf.readList 1 r)) := by
  rw [State.byteAt_of_lt (s := replyWith c r s) hcap, replyWith_read c r h, if_pos rfl]

/-- Beside the status and the checksum a reply leaves the buffer as it was. -/
theorem replyWith_byteAt_other (h : s.buf.wf) {i : Nat} (h0 : i ≠ 0) (hr : i ≠ r + 1) :
    (replyWith c r s).byteAt i = s.byteAt i := by
  rw [State.byteAt, replyWith_cap, replyWith_read c r h, if_neg hr, if_neg h0, ← State.byteAt]

end

/-- An error reply on the loaded transaction: the status, its checksum, and the driver's bytes from index 2 on. -/
theorem errorReply_bytes {t : Transaction} (hcap : 2 ≤ t.cap) (s : State) {c d : Byte} (hd : crc8 [c] = d) :
    (replyWith c 0 (loadXfer t s)).byteAt 0 = some c ∧ (replyWith c 0 (loadXfer t s)).byteAt 1 = some d ∧
      ∀ i, 2 ≤ i → (replyWith c 0 (loadXfer t s)).byteAt i = t.buf[i]? := by
  have hwf := loadXfer_wf t s
  refine ⟨replyWith_byteAt_zero c 0 hwf (Nat.zero_lt_of_lt hcap), ?_, fun i hi => ?_⟩
  · rw [← hd]
    exact replyWith_byteAt_checksum c 0 hwf hcap
  · rw [replyWith_byteAt_other c 0 hwf (by omega) (by omega)]
    exact loadedBufferHoldsDriversBytes t s i

/-- An error reply as the driver reads it: the status and its checksum. -/
theorem errorReply_wire (t : Transaction) (s : State) {c d : Byte} (hd : crc8 [c] = d) :
    (replyWith c 0 (loadXfer t s)).wire = [c, d] := by
  rw [← hd]
  exact replyWith_wire c 0 (loadXfer_wf t s)

end Sys2Proof.Machine

namespace Sys2Proof

open Sys2Proof.Machine

/-- Settles O27, on the path U_SHORT. -/
theorem shortFrameIsAnswered : Obligations.ShortFrameIsAnswered := by
  intro t answer s hm ht hlen
  have hp := pathOf_short ht hlen
  obtain ⟨-, hcap, -⟩ := ht
  exact ⟨_, onPath_eq _ hm hp, execXfer_short hm hp answer, rfl, errorReply_bytes hcap s (by decide)⟩

/-- Settles O28, on the path U_BADCRC. -/
theorem badChecksumIsAnswered : Obligations.BadChecksumIsAnswered := by
  intro t answer s hm ht hlen hcrc
  have hp := pathOf_badChecksum ht hlen hcrc
  obtain ⟨-, hcap, -⟩ := ht
  exact ⟨_, onPath_eq _ hm hp, execXfer_badChecksum hm hp answer, rfl, errorReply_bytes hcap s (by decide)⟩

/-- Settles O19: the changed frame has another checksum than 0, so it takes the path U_BADCRC. -/
theorem singleByteCorruptionIsAnswered : Obligations.SingleByteCorruptionIsAnswered := by
  intro addr x y tail b b' answer s hm haddr hlen hcrc hb
  have hsame : (x ++ b :: y).length = (x ++ b' :: y).length := by simp
  rw [hsame] at hlen ⊢
  have hcap : (x ++ b' :: y).length ≤ ((x ++ b' :: y) ++ tail).length := by simp
  have hu : IsUnicast ⟨addr, (x ++ b' :: y) ++ tail, (x ++ b' :: y).length⟩ := ⟨haddr, hlen.trans hcap, hcap⟩
  have hbad := crc8_ne_of_byte_ne x y hb
  rw [hcrc] at hbad
  have hp := pathOf_badChecksum hu hlen (by rw [Transaction.frame, List.take_left]; exact hbad.symm)
  exact ⟨_, execXfer_badChecksum hm hp answer, errorReply_wire _ s (by decide), rfl⟩

end Sys2Proof
end

section
/-!
PROOFS. A verified request (40_transport.md R70 to R74): the reply the dispatcher's answer becomes, the reply suppressed, and the
request whose answer is free.
-/

namespace Sys2Proof

open Sys2Proof.Machine

/-! ### A completion after the dispatcher's call (R70 to R72) -/

section
variable {t : Transaction} {a : Answer} {cmd : Byte} {s f : State}

/-- A reply after the dispatcher's call, element by element: its three events in order, and beside them only the buffer. -/
theorem CalledDispatcher.replyWith_eq (h : CalledDispatcher t a cmd s f) (c : Byte) (r : Nat) :
    replyWith c r f = { s with
      buf := (replyWith c r f).buf
      len := r + 2
      cap := t.cap
      history := s.history ++
        [.dispatchCall cmd (t.len - 2) (t.cap - 2), .dispatchAnswer a.status a.replyLen, .xferDone (r + 2)] } := by
  obtain ⟨hf, -⟩ := h
  generalize f.buf = m at hf
  subst hf
  simp [replyWith, trailer, completeXfer, emit, writeBuf]

/-- A suppressed reply after the dispatcher's call, element by element. -/
theorem CalledDispatcher.completeXfer_eq (h : CalledDispatcher t a cmd s f) (n : Nat) :
    completeXfer n f = { s with
      buf := (completeXfer n f).buf
      len := n
      cap := t.cap
      history := s.history ++
        [.dispatchCall cmd (t.len - 2) (t.cap - 2), .dispatchAnswer a.status a.replyLen, .xferDone n] } := by
  obtain ⟨hf, -⟩ := h
  generalize f.buf = m at hf
  subst hf
  simp [completeXfer, emit]

/-- A region no longer than the dispatcher may write is written whole (R76). -/
theorem CalledDispatcher.byteAt_of_length_le (h : CalledDispatcher t a cmd s f) (hregion : a.region.length ≤ t.cap - 2)
    (i : Nat) : f.byteAt i = afterRegion a.region t i := by
  obtain ⟨-, hbytes⟩ := h
  rw [hbytes, List.take_of_length_le hregion]

end

/-- Settles O29: the reply is written over the buffer that the dispatcher's call leaves. -/
theorem dispatcherAnswerBecomesReply : Obligations.DispatcherAnswerBecomesReply := by
  intro t c r region cmd s hm ht hcmd hc hr hregion
  obtain ⟨-, hcap, -⟩ := ht.1
  have hcalled := calledDispatcher_callDispatcher ⟨c, r, region⟩ hcmd s
  have hwf := callDispatcher_wf (some ⟨c, r, region⟩) (loadXfer_wf t s)
  have hxfer : exec (.xfer t (some ⟨c, r, region⟩)) s =
      .next (replyWith c r (callDispatcher (some ⟨c, r, region⟩) (loadXfer t s))) :=
    (execXfer_verified hm ht _).trans (afterDispatch_reply hc (hr.trans_eq (maxReplyLen_callDispatcher _).symm))
  have hother {i : Nat} (h0 : i ≠ 0) (h1 : i ≠ r + 1) :=
    (replyWith_byteAt_other c r hwf h0 h1).trans (hcalled.byteAt_of_length_le hregion i)
  refine ⟨_, hxfer, hcalled.replyWith_eq c r, replyWith_byteAt_zero c r hwf (Nat.zero_lt_of_lt hcap), ?_, ?_, ?_⟩
  · exact fun i h1 h2 => hother (by omega) (by omega)
  · rw [replyWith_wire c r hwf, List.take_left' (by simp)]
    exact replyWith_byteAt_checksum c r hwf (show r + 1 < t.cap by omega)
  · exact fun i hi => hother (by omega) (by omega)

/-- Settles O30: after NO_REPLY the buffer is as the dispatcher's call leaves it. -/
theorem noReplySuppressesReply : Obligations.NoReplySuppressesReply := by
  intro t r region cmd s hm ht hcmd hregion
  have hcalled := calledDispatcher_callDispatcher ⟨0xFF#8, r, region⟩ hcmd s
  have hxfer : exec (.xfer t (some ⟨0xFF#8, r, region⟩)) s =
      .next (completeXfer 0 (callDispatcher (some ⟨0xFF#8, r, region⟩) (loadXfer t s))) :=
    (execXfer_verified hm ht _).trans (afterDispatch_noReply r _)
  have hrow := xferEndingWith_eq_execXfer (endsWithStatus_verified ht 0xFF#8) r region s
  exact ⟨_, hrow.trans hxfer, hxfer, hcalled.completeXfer_eq 0, hcalled.byteAt_of_length_le hregion⟩

end Sys2Proof

namespace Sys2Proof.Machine

/-! ### The free answer (R76, log 3) -/

/-- `s` with another count of the free answers drawn. -/
def withDraws (n : Nat) (s : State) : State :=
  { s with draws := n }

@[simp] theorem maxReplyLen_withDraws (n : Nat) (s : State) : maxReplyLen (withDraws n s) = maxReplyLen s := rfl

theorem callDispatcher_none (s : State) :
    callDispatcher none s = withDraws (s.draws + 1) (callDispatcher (some (freeAnswer s)) s) := rfl

theorem afterDispatch_withDraws (n : Nat) (c : Byte) (r : Nat) (s : State) :
    afterDispatch c r (withDraws n s) = mapResult (withDraws n) (afterDispatch c r s) := by
  rw [afterDispatch, afterDispatch, maxReplyLen_withDraws]
  split_ifs <;> rfl

/-- A free region fills what the dispatcher may write (R76). -/
theorem freeAnswer_region_length (t : Transaction) (s : State) :
    (freeAnswer (loadXfer t s)).region.length = t.cap - 2 := by
  simp [freeAnswer, maxReplyLen]

/-- A verified request with a free answer goes, as its row and as XFER, as the one with that answer given, but for the count of draws. -/
theorem exec_free_of_given {t : Transaction} {s u : State} (hm : s.mode = .run) (ht : IsVerified t)
    (h : exec (.xfer t (some (freeAnswer (loadXfer t s)))) s = .next u) :
    exec (.unicastRequest t) s = .next (withDraws (s.draws + 1) u) ∧
      exec (.xfer t none) s = .next (withDraws (s.draws + 1) u) := by
  have hgiven := (execXfer_verified hm ht _).symm.trans h
  have hxfer : exec (.xfer t none) s = .next (withDraws (s.draws + 1) u) := by
    refine (execXfer_verified hm ht none).trans ?_
    rw [callDispatcher_none, afterDispatch_withDraws]
    exact congrArg (mapResult (withDraws (s.draws + 1))) hgiven
  exact ⟨(exec_xfer_eq_pathInstr (pathOf_verified ht) (fun _ => rfl) s).symm.trans hxfer, hxfer⟩

end Sys2Proof.Machine

namespace Sys2Proof

open Sys2Proof.Machine

/-- Settles O33: the free answer keeps its contract, so the request is replied to with it or suppressed by it. -/
theorem verifiedRequestCompletes : Obligations.VerifiedRequestCompletes := by
  intro t cmd s hm ht hcmd
  obtain ⟨-, hcap, -⟩ := ht.1
  have hfree {u : State} := exec_free_of_given (u := u) hm ht
  have hregion := (freeAnswer_region_length t s).le
  have hkeeps := keepsContract_cases (freeAnswer_keepsContract t s)
  generalize freeAnswer (loadXfer t s) = a at hfree hregion hkeeps
  obtain ⟨c, r, region⟩ := a
  have hlast : afterRegion region t (t.cap - 1) = t.buf[t.cap - 1]? :=
    afterRegion_of_length_lt (hregion.trans_lt (by omega))
  obtain hc | ⟨hc, hr⟩ := hkeeps
  · cases hc
    obtain ⟨u, -, hu, heq, hbytes⟩ := noReplySuppressesReply t r region cmd s hm ht hcmd hregion
    obtain ⟨hrow, hxfer⟩ := hfree hu
    generalize u.buf = m at heq
    subst heq
    exact ⟨_, 0xFF#8, r, hrow, hxfer, rfl, rfl, fun _ => (hbytes _).trans hlast, .inl ⟨rfl, rfl, hbytes 0⟩⟩
  · obtain ⟨u, hu, heq, -, -, -, hbytes⟩ := dispatcherAnswerBecomesReply t c r region cmd s hm ht hcmd hc hr hregion
    obtain ⟨u', -, hu', hhead, -, hcrc⟩ := statusRow_relays hm ht hc hr region
    cases hu.symm.trans hu'
    obtain ⟨hrow, hxfer⟩ := hfree hu
    generalize u.buf = m at heq
    subst heq
    have hfits : r + 2 ≤ t.cap := Nat.add_le_of_le_sub hcap hr
    exact ⟨_, c, r, hrow, hxfer, rfl, rfl, fun hlt => (hbytes _ (Nat.le_sub_one_of_lt hlt)).trans hlast,
      .inr ⟨hc, rfl, hfits, hhead, hcrc⟩⟩

end Sys2Proof
end

section
/-!
PROOFS. Every XFER that completes (40_transport.md R78): the length it returns, the reply that goes with it, and which transactions reach
the dispatcher.
-/

namespace Sys2Proof.Machine

section
variable {t : Transaction} {answer given : Option Answer} {s u : State}

/-- A reply of at most `n` bytes verifies and carries its status first (R73, R78(b)). -/
theorem replyWith_verifies {c : Byte} {r n : Nat} (hwf : s.buf.wf) (hc : c.toNat ≤ 0x05) (hr : r + 2 ≤ n) :
    2 ≤ (replyWith c r s).len ∧ (replyWith c r s).len ≤ n ∧ crc8 (replyWith c r s).wire = 0x00#8 ∧
      ∃ d, (replyWith c r s).wire.head? = some d ∧ d.toNat ≤ 0x05 := by
  refine ⟨Nat.le_add_left 2 r, hr, replyWith_crc c r hwf, c, ?_, hc⟩
  rw [replyWith_wire c r hwf]
  rfl

theorem statusDefined_cases {c : Byte} (h : statusDefined c = true) : c.toNat ≤ 0x05 ∨ c = 0xFF#8 := by
  simpa [statusDefined] using h

/-- An XFER that completes returns 0, or a reply that fits the buffer and verifies (R78(a), (b)). -/
theorem runPath_next_reply (h : runPath t given s = .next u) (hu : u.mode = .run) :
    u.len = 0 ∨ (2 ≤ u.len ∧ u.len ≤ t.cap ∧ crc8 u.wire = 0x00#8 ∧
      ∃ c, u.wire.head? = some c ∧ c.toNat ≤ 0x05) := by
  have hwf := loadXfer_wf t s
  obtain ⟨-, rfl⟩ | ⟨-, rfl⟩ | ⟨-, rfl⟩ | ⟨-, rfl⟩ | ⟨hp, rfl⟩ | ⟨hp, rfl⟩ | ⟨hp, h⟩ := runPath_next h
  · cases hu
  · exact .inl rfl
  · exact .inl rfl
  · exact .inl rfl
  · exact .inr (replyWith_verifies hwf (by decide) (two_le_cap_of_pathOf hp (by simp)))
  · exact .inr (replyWith_verifies hwf (by decide) (two_le_cap_of_pathOf hp (by simp)))
  · have hcap := two_le_cap_of_pathOf hp (by simp)
    obtain ⟨-, rfl⟩ | ⟨hne, hc, hr, rfl⟩ := afterDispatch_next h
    · exact .inl rfl
    · rw [maxReplyLen_callDispatcher] at hr
      exact .inr (replyWith_verifies (callDispatcher_wf given hwf) ((statusDefined_cases hc).resolve_right hne)
        (Nat.add_le_of_le_sub hcap hr))

/-- A broadcast that completes returns 0; the broadcast RESET does not complete, it halts TE (R64, R78(c)). -/
theorem broadcast_next_len (hm : s.mode = .run) (ht : IsBroadcast t) (h : exec (.xfer t answer) s = .next u)
    (hu : u.mode = .run) : u.len = 0 := by
  by_cases h6 : t.frame.head? = some 0x06#8
  · obtain ⟨hrow, hxfer⟩ := broadcastResetHalts t answer s hm ht h6
    cases (hxfer.trans hrow).symm.trans h
    cases hu
  · by_cases h4 : t.frame.head? = some 0x04#8
    · obtain ⟨hrow, hxfer⟩ := broadcastResetAddressCallsCollaborator t answer s hm ht h4
      cases (hxfer.trans hrow).symm.trans h
      rfl
    · obtain ⟨hrow, hxfer⟩ := broadcastNopIsSilent t answer s hm ht h4 h6
      cases (hxfer.trans hrow).symm.trans h
      rfl

/-- Off the dispatcher's path an XFER calls no dispatcher (R78(f)). -/
theorem pathOf_of_dispatchCall (h : runPath t given s = .next u) {cmd : Byte} {plen maxr : Nat}
    (hcall : .dispatchCall cmd plen maxr ∈ u.history.drop s.history.length) : pathOf t = some .uDispatch := by
  obtain ⟨-, rfl⟩ | ⟨-, rfl⟩ | ⟨-, rfl⟩ | ⟨-, rfl⟩ | ⟨-, rfl⟩ | ⟨-, rfl⟩ | ⟨hp, -⟩ := runPath_next h
  on_goal 7 => exact hp
  all_goals simp at hcall

end

end Sys2Proof.Machine

namespace Sys2Proof

open Sys2Proof.Machine

/-- Settles O38, clause by clause: the reply, the broadcasts, the two error replies, the dispatcher's path. -/
theorem completedXferProperties : Obligations.CompletedXferProperties := by
  intro t answer s u h hu
  obtain ⟨hm, hrun⟩ := whenRunning_next h
  have hlen := runPath_next_len_le hrun
  have hreply := runPath_next_reply hrun hu
  refine ⟨?_, ?_, ?_, ?_, ?_, ?_⟩
  · exact hreply.imp_right fun ⟨h2, hcap, _⟩ => ⟨h2, hcap⟩
  · intro h2
    obtain h0 | ⟨-, -, hcrc, hhead⟩ := hreply
    · omega
    · exact ⟨hcrc, hhead⟩
  · exact fun haddr => broadcast_next_len hm ⟨haddr, hlen⟩ h hu
  · intro haddr hcap hshort
    cases (execXfer_short hm (pathOf_short ⟨haddr, hcap, hlen⟩ hshort) answer).symm.trans h
    exact errorReply_wire t s (by decide)
  · intro haddr hcap h2 hcrc
    cases (execXfer_badChecksum hm (pathOf_badChecksum ⟨haddr, hcap, hlen⟩ h2 hcrc) answer).symm.trans h
    exact errorReply_wire t s (by decide)
  · exact fun cmd plen maxr hcall => isVerified_of_pathOf (pathOf_of_dispatchCall hrun hcall)

end Sys2Proof
end

section
/-!
PROOFS. The edge operations (41_encoder.md R80 to R83): the movement of the accumulator, sequences of samples, and the scheduler's answer
to a sample at rest (R126).
-/

namespace Sys2Proof.Machine

/-! ### Sequences of operations (R53) -/

/-- A sequence that completes is followed by the operations after it. -/
theorem execAll_append_of_next {xs : List Instr} {s v : State} (h : execAll xs s = .next v) (ys : List Instr) :
    execAll (xs ++ ys) s = execAll ys v := by
  induction xs generalizing s with
  | nil => cases h; rfl
  | cons i xs ih =>
    obtain ⟨w, hw, h⟩ := execAll_cons_next h
    exact (execAll_cons_of_next hw).trans (ih h)

/-! ### QUAD_SAMPLE (R81, R82) -/

/-- The accumulator moves by the table's entry, wrapping (R81). -/
theorem quadAcc_eq_add (a b : Bool) (s : State) :
    quadAcc a b s = s.acc + BitVec.ofInt 8 (delta (keyOf s.prev (sampleOf a b))) := by
  rw [quadAcc, u8, BitVec.ofInt_add, BitVec.ofInt_natCast, BitVec.ofNat_toNat, BitVec.setWidth_eq]

/-- How far a list of samples moves the accumulator, from the sample stored before it (R80, R81). -/
def movementOf : Sample → List (Bool × Bool) → Int
  | _, [] => 0
  | p, (a, b) :: samples => delta (keyOf p (sampleOf a b)) + movementOf (sampleOf a b) samples

/-- The sample stored after a list of samples (R81). -/
def linesAfter : Sample → List (Bool × Bool) → Sample
  | p, [] => p
  | _, (a, b) :: samples => linesAfter (sampleOf a b) samples

/-- The state after a list of samples, where R23 holds: each sample at rest has requested a drain, and no other (R81, R82). -/
def afterSamples (samples : List (Bool × Bool)) (s : State) : State :=
  { s with
    acc := s.acc + BitVec.ofInt 8 (movementOf s.prev samples)
    prev := linesAfter s.prev samples
    history := s.history ++ List.replicate (samples.count (true, true)) .drainRequest }

theorem afterSamples_nil (s : State) : afterSamples [] s = s := by
  simp [afterSamples, movementOf, linesAfter]

theorem afterSamples_cons (v : Bool × Bool) (samples : List (Bool × Bool)) (s : State) :
    afterSamples (v :: samples) s = afterSamples samples (afterSamples [v] s) := by
  have hcount : (v :: samples).count (true, true) = [v].count (true, true) + samples.count (true, true) :=
    List.count_append (l₁ := [v])
  simp [afterSamples, movementOf, linesAfter, hcount, BitVec.ofInt_add, BitVec.add_assoc]

theorem exec_quadSample_eq_afterSamples {s : State} (h : EncoderInv s) (a b : Bool) :
    exec (.quadSample a b) s = .next (afterSamples [(a, b)] s) := by
  refine (execQuadSample_eq a b s).trans ?_
  rw [atDetent_quadAcc h, quadAcc_eq_add]
  cases a <;> cases b <;> simp [afterSamples, movementOf, linesAfter]

/-- Samples always complete, one after the other, and keep the invariant (R23, R81). -/
theorem execAll_quadSamples {s : State} (h : EncoderInv s) (samples : List (Bool × Bool)) :
    execAll (samples.map fun v => .quadSample v.1 v.2) s = .next (afterSamples samples s) ∧
      EncoderInv (afterSamples samples s) := by
  induction samples generalizing s with
  | nil => rw [afterSamples_nil]; exact ⟨rfl, h⟩
  | cons v samples ih =>
    have hv := exec_quadSample_eq_afterSamples h v.1 v.2
    obtain ⟨hrun, hinv⟩ := ih (exec_encoderInv h hv)
    rw [afterSamples_cons]
    exact ⟨(execAll_cons_of_next hv).trans hrun, hinv⟩

/-- Samples by what they come to: a movement `m`, a last sample `q`, and `k` of them at rest (R90). -/
theorem execAll_quadSamples_eq {s : State} (h : EncoderInv s) (samples : List (Bool × Bool)) {p q : Sample} {m : Int} {k : Nat}
    (hp : s.prev = p) (hm : movementOf p samples = m) (hq : linesAfter p samples = q)
    (hk : samples.count (true, true) = k) :
    execAll (samples.map fun v => .quadSample v.1 v.2) s = .next
      { s with
        acc := s.acc + BitVec.ofInt 8 m
        prev := q
        history := s.history ++ List.replicate k .drainRequest } := by
  subst hp hm hq hk
  exact (execAll_quadSamples h samples).1

/-- Only the rest sample has phase 0 (R80). -/
theorem phase_eq_zero_iff (v : Sample) : phase v = 0 ↔ v = 0b11#2 := by
  revert v
  decide

end Sys2Proof.Machine

namespace Sys2Proof

open Sys2Proof.Machine

/-- Settles O43, over the 16 keys. -/
theorem deltaTableEntries : Obligations.DeltaTableEntries :=
  ⟨rfl, by decide⟩

/-- Settles O44: the new accumulator is the old one and the table's entry, wrapping. -/
theorem quadSampleMovesAccumulator : Obligations.QuadSampleMovesAccumulator := by
  intro a b s cur acc
  have hacc : quadAcc a b s = acc := quadAcc_eq_add a b s
  have hcur : sampleOf a b = cur := rfl
  show execQuadSample a b s = _
  simpa only [hacc, hcur, atDetent, Config.detentStep, decide_eq_true_eq] using execQuadSample_eq a b s

/-- Settles O46: samples keep R23, whose clause (c) puts the accumulator at the phase of the lines. -/
theorem restPhaseSelfCorrects : Obligations.RestPhaseSelfCorrects := by
  intro samples s hs
  obtain ⟨hrun, -, -, hacc⟩ := execAll_quadSamples hs samples
  exact ⟨_, hrun, by rw [hacc, phase_eq_zero_iff]⟩

/-- Settles O48, by the two levels of the line. -/
theorem buttonEdgeCountsPress : Obligations.ButtonEdgeCountsPress := by
  intro l s
  cases l with
  | false => exact exec_press s
  | true => rfl

/-- Settles O57: the sample at rest requests a drain, and a fair scheduler starts one. -/
theorem fairSchedulerServesRest : Obligations.FairSchedulerServesRest := by
  intro r n hfair hinv hop
  obtain ⟨u, hu, hhist⟩ := drainRequestedExactlyAtRest true true (r.state n) hinv
  have hmove := r.moves n
  rw [hop, hu] at hmove
  cases hmove
  exact hfair n hhist

end Sys2Proof
end

section
/-!
PROOFS. The drain (41_encoder.md R85 to R90): its steps one by one, the detents it counts, and the complete drain of a still accumulator.
-/

namespace Sys2Proof.Machine

/-! ### When DRAIN and DRAIN_STEP step (R85, R86) -/

theorem exec_drain_of_idle {s : State} (h : s.dph = .idle) :
    exec .drain s = .next { s with ddet := 0x00#8, dph := .loop } := by
  simp only [exec, execDrain, h]

theorem exec_drain_of_ne_idle {s : State} (h : s.dph ≠ .idle) : exec .drain s = .refused .drainInProgress := by
  cases hd : s.dph with
  | idle => exact absurd hd h
  | loop => simp only [exec, execDrain, hd]
  | clear => simp only [exec, execDrain, hd]

theorem exec_drainStep_of_loop {s : State} (h : s.dph = .loop) : exec .drainStep s = .next (convertDetent s) := by
  simp only [exec, execDrainStep, h]

theorem exec_drainStep_of_ne_loop {s : State} (h : s.dph ≠ .loop) :
    exec .drainStep s = .refused .drainNotInLoop := by
  cases hd : s.dph with
  | loop => exact absurd hd h
  | idle => simp only [exec, execDrainStep, hd]
  | clear => simp only [exec, execDrainStep, hd]

/-! ### The detents still to be counted (R86, R89) -/

theorem diffOf_bounds (acc last : Byte) : -128 ≤ diffOf acc last ∧ diffOf acc last < 128 :=
  ⟨BitVec.le_toInt (acc - last), BitVec.toInt_lt⟩

/-- Moving LAST moves the difference the other way, as long as it does not wrap (R86). -/
theorem diffOf_add {acc last : Byte} {m : Int} (hlow : -128 ≤ diffOf acc last - m) (hhigh : diffOf acc last - m < 128) :
    diffOf acc (last + BitVec.ofInt 8 m) = diffOf acc last - m := by
  have hdiff : acc - (last + BitVec.ofInt 8 m) = BitVec.ofInt 8 (diffOf acc last - m) := by
    rw [Int.sub_eq_add_neg, BitVec.ofInt_add, BitVec.ofInt_neg, diffOf, s8, BitVec.ofInt_toInt, ← BitVec.sub_sub,
      BitVec.sub_eq_add_neg]
  rw [diffOf, s8, hdiff]
  exact BitVec.toInt_ofInt_eq_self (by decide) hlow hhigh

/-- The detents a drain of a still accumulator has yet to count (R89). -/
def detentsLeft (s : State) : Int := detentsOf (diffOf s.acc s.last)

/-- LAST and the detent counter moved by a number of detents (R86). -/
def moveDetents (n : Int) (s : State) : State :=
  { s with last := s.last + BitVec.ofInt 8 (4 * n), ddet := s.ddet + BitVec.ofInt 8 n }

@[simp] theorem moveDetents_dph (n : Int) (s : State) : (moveDetents n s).dph = s.dph := rfl

theorem moveDetents_zero (s : State) : moveDetents 0 s = s := by
  simp [moveDetents]

theorem moveDetents_moveDetents (m n : Int) (s : State) : moveDetents m (moveDetents n s) = moveDetents (n + m) s := by
  simp only [moveDetents, Int.mul_add, BitVec.ofInt_add, BitVec.add_assoc]

theorem moveDetents_neg_one (s : State) :
    moveDetents (-1) s = { s with last := s.last - 4#8, ddet := s.ddet - 1#8 } := by
  rw [BitVec.sub_eq_add_neg, BitVec.sub_eq_add_neg]
  rfl

/-- Outside the window, one detent toward the accumulator is one detent less to count (R86). -/
theorem detentsLeft_moveDetents {s : State} {e : Int}
    (h : (diffOf s.acc s.last < -3 ∧ e = -1) ∨ (3 < diffOf s.acc s.last ∧ e = 1)) :
    detentsLeft (moveDetents e s) = detentsLeft s - e ∧ (detentsLeft s).natAbs = (detentsLeft s - e).natAbs + 1 := by
  have hbounds := diffOf_bounds s.acc s.last
  have hmove : diffOf s.acc (moveDetents e s).last = diffOf s.acc s.last - 4 * e := diffOf_add (by omega) (by omega)
  rw [detentsLeft, show (moveDetents e s).acc = s.acc from rfl, hmove]
  simp only [detentsLeft, detentsOf, Config.windowHigh, Config.windowLow]
  omega

/-- DRAIN_STEP counts one of the detents left, or ends the loop where none is left (R86). -/
theorem convertDetent_detentsLeft (s : State) :
    (detentsLeft s = 0 ∧ convertDetent s = { s with dph := .clear }) ∨
    ∃ e, convertDetent s = moveDetents e s ∧ detentsLeft (moveDetents e s) = detentsLeft s - e ∧
      (detentsLeft s).natAbs = (detentsLeft s - e).natAbs + 1 := by
  obtain ⟨hd, hs⟩ | ⟨hd, hs⟩ | ⟨hlow, hhigh, hs⟩ := convertDetent_cases s
  · exact .inr ⟨-1, hs.trans (moveDetents_neg_one s).symm, detentsLeft_moveDetents (.inl ⟨hd, rfl⟩)⟩
  · exact .inr ⟨1, hs, detentsLeft_moveDetents (.inr ⟨hd, rfl⟩)⟩
  · refine .inl ⟨?_, hs⟩
    rw [detentsLeft, detentsOf, if_neg (Int.not_lt.mpr hhigh), if_neg (Int.not_lt.mpr hlow)]

/-- A drain counts at most 32 detents (R86). -/
theorem detentsLeft_natAbs_le (s : State) : (detentsLeft s).natAbs ≤ 32 := by
  have hbounds := diffOf_bounds s.acc s.last
  simp only [detentsLeft, detentsOf, Config.windowHigh, Config.windowLow]
  omega

/-! ### The complete drain (R89) -/

/-- The loop counts every detent left, one a step, and one more step ends it (R86). -/
theorem execAll_drainSteps {s : State} (h : s.dph = .loop) :
    execAll (List.replicate ((detentsLeft s).natAbs + 1) .drainStep) s =
      .next { moveDetents (detentsLeft s) s with dph := .clear } := by
  induction hk : (detentsLeft s).natAbs generalizing s with
  | zero =>
    have hnone : detentsLeft s = 0 := Int.natAbs_eq_zero.mp hk
    obtain ⟨-, hs⟩ | ⟨e, -, -, habs⟩ := convertDetent_detentsLeft s
    · rw [hnone, moveDetents_zero, ← hs]
      exact execAll_cons_of_next (exec_drainStep_of_loop h)
    · omega
  | succ k ih =>
    obtain ⟨hnone, -⟩ | ⟨e, hs, hleft, habs⟩ := convertDetent_detentsLeft s
    · omega
    · have hrest := ih (s := moveDetents e s) h (by omega)
      rw [moveDetents_moveDetents, hleft, add_sub_cancel] at hrest
      exact (execAll_cons_of_next ((exec_drainStep_of_loop h).trans (congrArg _ hs))).trans hrest

/-- A complete drain counts the detents left, and reports them beside the press count, which it clears (R89). -/
theorem execAll_drainStar {s : State} (hbtn : s.btn.toNat ≤ 127) (h : s.dph = .idle) :
    execAll (drainStar s) s = .next
      { s with
        last := s.last + BitVec.ofInt 8 (4 * detentsLeft s)
        ddet := BitVec.ofInt 8 (detentsLeft s)
        btn := 0x00#8
        history := s.history ++ [.drainResult s.btn (detentsLeft s)] } := by
  have hle := detentsLeft_natAbs_le s
  have hsigned : s8 (BitVec.ofInt 8 (detentsLeft s)) = detentsLeft s :=
    BitVec.toInt_ofInt_eq_self (by decide) (by simp only [Nat.reduceSub]; omega) (by simp only [Nat.reduceSub]; omega)
  have hsteps := execAll_drainSteps (s := { s with ddet := 0x00#8, dph := .loop }) rfl
  refine (execAll_cons_of_next (exec_drain_of_idle h)).trans ((execAll_append_of_next hsteps _).trans ?_)
  refine (execAll_cons_of_next (exec_drainClear_of_clear rfl)).trans ?_
  simp only [moveDetents, BitVec.zero_add, drainWord_of_le hbtn, execAll, ← h]
  rw [show detentsLeft { s with ddet := 0x00#8, dph := DrainPhase.loop } = detentsLeft s from rfl, hsigned]

/-! ### Presses (R83) -/

/-- Qualifying edges always complete, and count up to 127 (R83, R90(c)). -/
theorem execAll_presses {s : State} (h : s.btn.toNat ≤ 127) (n : Nat) :
    execAll (List.replicate n (.btnEdge false)) s =
      .next { s with btn := BitVec.ofNat 8 (min (s.btn.toNat + n) 127) } := by
  induction n generalizing s with
  | zero =>
    rw [Nat.add_zero, Nat.min_eq_left h, BitVec.ofNat_toNat, BitVec.setWidth_eq]
    rfl
  | succ n ih =>
    have hpress := countPress_toNat s.btn
    have hrest := ih (s := { s with btn := countPress s.btn }) (by simp only [hpress]; omega)
    refine (execAll_cons_of_next (exec_press s)).trans (hrest.trans ?_)
    have hcount : min (min (s.btn.toNat + 1) 127 + n) 127 = min (s.btn.toNat + (n + 1)) 127 := by omega
    simp only [hpress, hcount]

end Sys2Proof.Machine

namespace Sys2Proof

open Sys2Proof.Machine

/-- Settles O51, by the drain's phase. -/
theorem drainStarts : Obligations.DrainStarts :=
  fun _ => ⟨exec_drain_of_idle, exec_drain_of_ne_idle⟩

/-- Settles O52, by where the difference lies. -/
theorem drainStepConvertsOneDetent : Obligations.DrainStepConvertsOneDetent := by
  intro s
  refine ⟨fun h => ?_, exec_drainStep_of_ne_loop⟩
  rw [exec_drainStep_of_loop h]
  have hcases := convertDetent_cases s
  simp only [diffOf, s8] at hcases
  obtain ⟨hd, hs⟩ | ⟨hd, hs⟩ | ⟨hlow, hhigh, hs⟩ := hcases
  · exact ⟨fun _ => congrArg _ hs, fun _ => by omega, fun _ _ => by omega⟩
  · exact ⟨fun _ => by omega, fun _ => congrArg _ hs, fun _ _ => by omega⟩
  · exact ⟨fun _ => by omega, fun _ => by omega, fun _ _ => congrArg _ hs⟩

/-- Settles O55: the drain counts the detents left; at a detent the difference is a multiple of 4, so nothing is left of it. -/
theorem completeDrainClosedForm : Obligations.CompleteDrainClosedForm := by
  rintro s ⟨hbtn, hlast, -⟩ hidle d n
  have hn : n = detentsOf d := rfl
  simp only [detentsOf, Config.windowHigh, Config.windowLow] at hn
  refine ⟨execAll_drainStar hbtn hidle, by omega, by omega, by omega, fun hacc => ?_,
    Nat.succ_le_succ (detentsLeft_natAbs_le s)⟩
  have hmod : d % 4 = 0 := by
    have hdiff : (s.acc - s.last).toNat % 4 = 0 := by bv_omega
    simp only [d, BitVec.toInt_eq_toNat_cond]
    omega
  rw [show 4 * n = d by omega, BitVec.ofInt_toInt, BitVec.add_comm, BitVec.sub_add_cancel]

/-- Settles O50: the edges count to 127, which the drain reports and clears. -/
theorem pressesSaturateAndAreReported : Obligations.PressesSaturateAndAreReported := by
  intro s hbtn
  refine ⟨execAll_presses hbtn, fun hidle => ?_⟩
  have hpresses := execAll_presses hbtn 130
  rw [show min (s.btn.toNat + 130) 127 = 127 by omega] at hpresses
  have hdrain := execAll_drainStar (s := { s with btn := 127#8 }) (le_refl 127) hidle
  exact ⟨_, (execAll_append_of_next hpresses _).trans hdrain, rfl, _, rfl⟩

/-- Settles O47: the table's entries of each list of samples add up to the movement stated; the drain after the reversal has no
detent left to count. -/
theorem rotationFromRest : Obligations.RotationFromRest := by
  intro s hs
  have hstill : s.acc + BitVec.ofInt 8 0 = s.acc := BitVec.add_zero s.acc
  refine ⟨fun hrest => ?_, fun hpast => ?_⟩
  · have hthree := execAll_quadSamples_eq hs [(false, true), (false, false), (true, false)] hrest
      (m := 3) (q := 0b10#2) (k := 0) rfl rfl rfl
    have hcycle := execAll_quadSamples_eq hs [(false, true), (false, false), (true, false), (true, true)] hrest
      (m := 4) (k := 1) rfl hrest.symm rfl
    have hreversal := execAll_quadSamples_eq hs [(false, true), (false, false), (false, true), (true, true)] hrest
      (m := 0) (k := 1) rfl hrest.symm rfl
    simp only [hstill] at hreversal
    refine ⟨?_, hcycle, hreversal, fun hidle hlast => ?_⟩
    · rw [List.replicate_zero, List.append_nil] at hthree
      exact hthree
    · have hdrain := execAll_drainStar (s := { s with history := s.history ++ [.drainRequest] }) hs.1 hidle
      have hnone : detentsLeft s = 0 := by
        rw [detentsLeft, hlast, diffOf, BitVec.sub_self]
        rfl
      refine ⟨_, (execAll_append_of_next hreversal _).trans hdrain, ?_⟩
      show s.history ++ [.drainRequest] ++ [.drainResult s.btn (detentsLeft s)] = _
      rw [hnone, List.append_assoc]
      rfl
  · have hreversal := execAll_quadSamples_eq hs [(false, false), (true, false), (false, false), (false, true)] hpast
      (m := 0) (k := 0) rfl hpast.symm rfl
    rw [hstill, List.replicate_zero, List.append_nil] at hreversal
    exact hreversal

end Sys2Proof
end

section
/-!
PROOFS. A main context that keeps its duty (60_exceptions.md R114) ends every drain of a still accumulator (41_encoder.md R86): each
DRAIN_STEP leaves less of the drain to do, and no other operation leaves more.
-/

namespace Sys2Proof.Machine

/-- The DRAIN_STEPs a drain still has before it, while the accumulator is still (R86). -/
def stepsLeft (s : State) : Nat := if s.dph = .loop then (detentsLeft s).natAbs + 1 else 0

/-- The steps left depend on the phase, the accumulator and LAST alone. -/
theorem stepsLeft_congr {s u : State} (hdph : u.dph = s.dph) (hacc : u.acc = s.acc) (hlast : u.last = s.last) :
    stepsLeft u = stepsLeft s := by
  simp only [stepsLeft, detentsLeft, hdph, hacc, hlast]

/-- A DRAIN_STEP leaves the drain in progress, with fewer steps before it (R86). -/
theorem drainStep_stepsLeft {s : State} (h : s.dph = .loop) :
    (convertDetent s).dph ≠ .idle ∧ stepsLeft (convertDetent s) < stepsLeft s := by
  obtain ⟨-, hs⟩ | ⟨e, hs, hleft, habs⟩ := convertDetent_detentsLeft s
  · simp [hs, stepsLeft, h]
  · rw [hs, stepsLeft, stepsLeft, moveDetents_dph, if_pos h, if_pos h, hleft, h]
    exact ⟨nofun, by omega⟩

/-- An operation that leaves the accumulator still and ends no drain: no sample, no reset, no DRAIN_CLEAR (R13, R16). -/
def KeepsDrain (i : Instr) : Prop :=
  (∀ a b, i ≠ .quadSample a b) ∧ (∀ src, i ≠ .reset src) ∧ i ≠ .drainClear

/-- Such an operation leaves a drain in progress, and of those only DRAIN_STEP changes the steps left (R16). -/
theorem exec_keepsDrain {i : Instr} {s u : State} (hi : KeepsDrain i) (h : exec i s = .next u) (hdrain : s.dph ≠ .idle) :
    u.dph ≠ .idle ∧ stepsLeft u ≤ stepsLeft s ∧ (i = .drainStep → stepsLeft u < stepsLeft s) := by
  obtain ⟨hsample, hreset, hclear⟩ := hi
  cases leads_of_exec h with
  | transport b hi =>
    rw [exec_transport_next_withEncoderOf hi h]
    refine ⟨hdrain, (stepsLeft_congr rfl rfl rfl).le, ?_⟩
    rintro rfl
    cases hi
  | quadSample a b => exact absurd rfl (hsample a b)
  | btnEdge l => exact ⟨hdrain, (stepsLeft_congr rfl rfl rfl).le, nofun⟩
  | drain hidle => exact absurd hidle hdrain
  | drainStep hloop =>
    obtain ⟨hphase, hless⟩ := drainStep_stepsLeft hloop
    exact ⟨hphase, hless.le, fun _ => hless⟩
  | drainClear => exact absurd rfl hclear
  | reset src => exact absurd rfl (hreset src)

end Sys2Proof.Machine

namespace Sys2Proof

open Sys2Proof.Machine

/-- Along a run of such operations a drain stays in progress, and the steps left never grow. -/
theorem Run.drain_kept {r : Run} {n m : Nat} (hdrain : (r.state n).dph ≠ .idle)
    (hkeeps : ∀ j, n ≤ j → KeepsDrain (r.op j)) (hm : n ≤ m) :
    (r.state m).dph ≠ .idle ∧ stepsLeft (r.state m) ≤ stepsLeft (r.state n) := by
  induction m, hm using Nat.le_induction with
  | base => exact ⟨hdrain, le_rfl⟩
  | succ m hm ih =>
    obtain ⟨hphase, hle⟩ := ih
    obtain ⟨hphase', hle', -⟩ := exec_keepsDrain (hkeeps m hm) (r.moves m) hphase
    exact ⟨hphase', hle'.trans hle⟩

/-- No fair run goes on with such operations for ever: the duty brings a DRAIN_STEP, after which there are fewer steps left (R114). -/
theorem Run.not_drainFair_of_keepsDrain {r : Run} {n : Nat} (hdrain : (r.state n).dph ≠ .idle)
    (hkeeps : ∀ j, n ≤ j → KeepsDrain (r.op j)) : ¬ r.drainFair := by
  intro hfair
  induction hk : stepsLeft (r.state n) using Nat.strong_induction_on generalizing n with
  | _ k ih =>
    obtain ⟨m, hm, hop⟩ := hfair n hdrain
    obtain ⟨-, hreset, hclear⟩ := hkeeps m hm
    obtain hstep | hop | ⟨src, hop⟩ := hop
    · obtain ⟨hphase, hle⟩ := Run.drain_kept hdrain hkeeps hm
      obtain ⟨hphase', -, hless⟩ := exec_keepsDrain (hkeeps m hm) (r.moves m) hphase
      have hfewer : stepsLeft (r.state (m + 1)) < k := hk ▸ (hless hstep).trans_le hle
      exact ih _ hfewer hphase' (fun j hj => hkeeps j (by omega)) rfl
    · exact hclear hop
    · exact hreset src hop

/-- Settles O56: a run without DRAIN_CLEAR would go on for ever with operations that keep the drain. -/
theorem fairMainContextEndsDrain : Obligations.FairMainContextEndsDrain := by
  intro r n hfair hdrain hstill
  by_contra hnone
  refine Run.not_drainFair_of_keepsDrain hdrain (fun m hm => ?_) hfair
  obtain ⟨hsample, hreset⟩ := hstill m hm
  exact ⟨hsample, hreset, fun hclear => hnone ⟨m, hm, hclear⟩⟩

end Sys2Proof
end

section
/-!
PROOFS. The encoder engine has no error state (60_exceptions.md R106): what one of its operations does not complete, it refuses.
-/

namespace Sys2Proof.Machine

/-- An encoder operation steps or is refused: the samples and edges always step (R81, R83), each drain operation in its own phase alone
(R85 to R87). -/
theorem exec_encoder_next_or_refused {i : Instr} (hi : i.isEncoder = true) (s : State) :
    (∃ u, exec i s = .next u) ∨ ∃ r, exec i s = .refused r := by
  cases i with
  | quadSample a b => exact .inl ⟨_, execQuadSample_eq a b s⟩
  | btnEdge l => exact .inl ⟨_, execBtnEdge_eq l s⟩
  | drain =>
    by_cases hd : s.dph = .idle
    · exact .inl ⟨_, exec_drain_of_idle hd⟩
    · exact .inr ⟨_, exec_drain_of_ne_idle hd⟩
  | drainStep =>
    by_cases hd : s.dph = .loop
    · exact .inl ⟨_, exec_drainStep_of_loop hd⟩
    · exact .inr ⟨_, exec_drainStep_of_ne_loop hd⟩
  | drainClear =>
    by_cases hd : s.dph = .clear
    · exact .inl ⟨_, exec_drainClear_of_clear hd⟩
    · exact .inr ⟨_, exec_drainClear_of_ne_clear hd⟩
  | _ => cases hi

end Sys2Proof.Machine

namespace Sys2Proof

open Sys2Proof.Machine

/-- Settles O42: an encoder operation that does not step is refused. -/
theorem encoderRaisesNoFault : Obligations.EncoderRaisesNoFault := by
  intro i s f hi hfault
  obtain ⟨u, h⟩ | ⟨r, h⟩ := exec_encoder_next_or_refused hi s
  · cases h.symm.trans hfault
  · cases h.symm.trans hfault

end Sys2Proof
end

section
/-!
PROOFS. RESET and the watchdog (70_reset_and_hazards.md R120 to R122): when a reset has a step, what it leads to, and how a fair run
leaves HALTED.
-/

namespace Sys2Proof.Machine

/-- A reset whose source is enabled (R121) resets every element (R120). -/
theorem exec_reset_of_enabled {src : ResetSource} {s : State} (h : src = .powerOn ∨ s.mode = .halted) :
    exec (.reset src) s = .next (resetElements src s) := by
  cases src with
  | powerOn => rfl
  | watchdog =>
    have hm : s.mode = .halted := h.resolve_left nofun
    simp only [exec, execReset, hm]

end Sys2Proof.Machine

namespace Sys2Proof

open Sys2Proof.Machine

/-- Settles O11, by the writes of `resetElements`. -/
theorem resetSetsEveryElement : Obligations.ResetSetsEveryElement :=
  fun _ _ henabled => exec_reset_of_enabled henabled

/-- Settles O12: the watchdog's reset is refused in RUN. -/
theorem watchdogResetNeedsHalt : Obligations.WatchdogResetNeedsHalt := by
  intro s hm
  simp only [exec, execReset, hm]

/-- A reset leads to RUN, whatever its source (R120). -/
theorem Run.mode_after_reset {r : Run} {m : Nat} {src : ResetSource} (h : r.op m = .reset src) :
    (r.state (m + 1)).mode = .run := by
  have hmove := r.moves m
  rw [h] at hmove
  obtain ⟨-, hnext⟩ := execReset_next hmove
  rw [hnext, resetElements_mode]

/-- Only a reset leads a run from HALTED to RUN (R113). -/
theorem Run.op_of_halt_left {r : Run} {m : Nat} (hhalted : (r.state m).mode = .halted) (hrun : (r.state (m + 1)).mode = .run) :
    r.op m = .reset .watchdog ∨ r.op m = .reset .powerOn := by
  obtain ⟨hleft, -⟩ := haltIsEnteredAndLeftOnlyByReset _ _ _ (r.moves m)
  obtain ⟨src, hop⟩ := hleft hhalted hrun
  cases src with
  | powerOn => exact .inr hop
  | watchdog => exact .inl hop

/-- Settles O16: with no reset that ends the halt TE would stay halted for ever, and fairness brings a reset all the same. -/
theorem fairRunLeavesHalt : Obligations.FairRunLeavesHalt := by
  intro r n hfair hhalted
  by_contra hnone
  have hstays : ∀ m, n ≤ m → (r.state m).mode = .halted := by
    intro m
    induction m using Nat.strong_induction_on with
    | _ m ih =>
      intro hm
      obtain rfl | hlt := hm.eq_or_lt
      · exact hhalted
      · obtain ⟨j, rfl⟩ : ∃ j, m = j + 1 := ⟨m - 1, by omega⟩
        have hbefore : ∀ k, n ≤ k → k ≤ j → (r.state k).mode = .halted := fun k hk hkj => ih k (by omega) hk
        have hj : n ≤ j := by omega
        cases hmode : (r.state (j + 1)).mode with
        | halted => rfl
        | run => exact absurd ⟨j, hj, Run.op_of_halt_left (hbefore j hj le_rfl) hmode, hbefore, hmode⟩ hnone
  obtain ⟨m, hm, hop⟩ := hfair n hstays
  exact hnone ⟨m, hm, .inl hop, fun k hk _ => hstays k hk, Run.mode_after_reset hop⟩

end Sys2Proof
end

section
/-!
PROOFS. The words of the port operations (30_encoding.md R51): an operation that a port word decodes to is encoded as that very word.
The patterns of R51 fix every bit of the word and no two of them share an instruction, so nothing of the word is lost in decoding.
-/

namespace Sys2Proof

/-- A word without bus operands that decodes is one of R51's patterns, which is the encoding of its instruction. -/
theorem encode_of_decodeBits {bits : List Bool} {i : Instr} (h : decodeBits bits = .ok i) : encode i = .op bits none := by
  unfold decodeBits at h
  split at h <;> cases h <;> rfl

/-- A word with bus operands that decodes has XFER's selector, and XFER keeps the transaction and the answer. -/
theorem encode_of_decodeBusOp {b : BusInput} {bits : List Bool} {i : Instr} (h : decodeBusOp b bits = .ok i) :
    encode i = .op bits (some b) := by
  unfold decodeBusOp at h
  split at h
  · obtain ⟨rfl, -⟩ := checkBus_ok_inv h
    rfl
  · cases h
  · cases h

/-- Settles O2, by whether the word carries bus operands. -/
theorem encodeOfDecodedOperation : Obligations.EncodeOfDecodedOperation := by
  intro bits bus i h
  cases bus with
  | none => exact encode_of_decodeBits h
  | some b => exact encode_of_decodeBusOp h

end Sys2Proof
end
